-- ==== Sys2Proof/Word.lean ====
section
/-! DEFINITION. The bit-vector types of the IVC: what 00_scope.md R7, R8 and R11 call 32-bit words, 128-bit
counters and 160-bit offsets, and the bytes of R12. Everything else in the model is an inductive type, a Bool or a Nat. -/

namespace Sys2Proof

/-- A 32-bit bus word (R20, R42). -/
abbrev Word := BitVec 32

/-- A byte of the IV byte strings of R12. -/
abbrev Byte := BitVec 8

/-- A 128-bit counter or block count (R7, R31, R32). -/
abbrev Counter := BitVec 128

/-- A 160-bit offset magnitude or quotient (R8, R33, R35). -/
abbrev Wide := BitVec 160

/-- A byte offset within the register window: the port's `a[7:0]` (R42, R48). -/
abbrev WindowOffset := BitVec 8

end Sys2Proof
end

