-- ==== Sys2Proof/Config.lean ====
section
/-! DEFINITION. What the spec leaves open, as constants without a body (nothing in Lean can evaluate one): the latency
LAT (00_scope.md R9, 70_reset_and_hazards.md R143) and the contents of the operand latch after a reset (10_state.md R40,
R44, I10). Each is applied to a counter that State holds, so that each draw of one run has an index of
its own; the runs and the instances of a platform share them: DESIGN CHOICE (log 23). BASE and N_INST (R9) are
arguments of Machine/Platform.lean. -/

namespace Sys2Proof

/-- LAT, counted in steps of the other agents (R106: a finite, unspecified number of host steps, at least zero): how many
steps pass between the n-th acceptance and its completion (log 1). -/
opaque Config.latency : Nat → Nat

/-- `L.cmd` after the n-th reset step (R44: unspecified; log 2). -/
opaque Config.latchCmdDraw : Nat → Word
/-- `L.keylen` after the n-th reset step (R44; log 2). -/
opaque Config.latchKeylenDraw : Nat → Word
/-- `L.ivlen` after the n-th reset step (R44; log 2). -/
opaque Config.latchIvlenDraw : Nat → Word
/-- `L.neg` after the n-th reset step (R44; log 2). -/
opaque Config.latchNegDraw : Nat → Bool
/-- `L.iv` after the n-th reset step (R44; log 2). -/
opaque Config.latchIvDraw : Nat → Counter
/-- `L.blk` after the n-th reset step (R44; log 2). -/
opaque Config.latchBlkDraw : Nat → Counter
/-- `L.off` after the n-th reset step (R44; log 2). -/
opaque Config.latchOffDraw : Nat → Wide
/-- `L.ivout` after the n-th reset step (R44; log 2). -/
opaque Config.latchIvoutDraw : Nat → Counter

end Sys2Proof
end

