-- ==== Sys2Proof/Syntax.lean ====
section
/-! DEFINITION. The command set (30_encoding.md R65), the names of the registers (10_state.md R21), the host's bus accesses
(20_memory.md R50, R51), the host program notation (30_encoding.md R72, R73) and the changes of the reset pin
(10_state.md R42). -/

namespace Sys2Proof

/-- The commands of the opcode table (R65). A command has no operand fields (R64). ILLEGAL is no row of the table: it is
what the decoder says of every other word (R67). -/
inductive Instr where
  | nop | validate | divide | increment | position | copyback
deriving DecidableEq, Repr

/-- The 32-bit registers of the window (R21). A value wider than 32 bits has its words numbered from the most
significant one, word 0 (R20). -/
inductive Reg where
  | id | ctrl | cmd | status | err | keylen | ivlen | offsign
  | ivIn (j : Fin 4) | blk (j : Fin 4) | off (j : Fin 5)
  | ivOut (j : Fin 4) | quot (j : Fin 5) | resid
deriving DecidableEq, Repr

/-- One bus operation of the host. `read` and `write` are MemRead and MemWrite of R50 and R51 with any size in bytes; a
read leaves its data in the host variable numbered `x` (R72: "host variable name"; log 8). `poll` is R72's POLL: a 4-byte read repeated until `(value & mask) = val`. -/
inductive BusOp where
  | read (a : WindowOffset) (n : Nat) (x : Nat)
  | write (a : WindowOffset) (n : Nat) (v : Word)
  | poll (a : WindowOffset) (mask val : Word)
deriving DecidableEq, Repr

/-- The direction of a bus transaction (R74). -/
inductive Dir where
  | r | w
deriving DecidableEq, Repr

/-- A bus transaction `(dir, offset, size, data)` of R74; the data field is empty for a read. -/
structure Transaction where
  dir : Dir
  offset : WindowOffset
  size : Nat
  data : Option Word
deriving DecidableEq, Repr

/-- The 128-bit values that R73's RD128 names; WR128 takes `ivIn` and `blk` only. -/
inductive Reg128 where
  | ivOut | ivIn | blk
deriving DecidableEq, Repr

/-- The 160-bit values that R73's RD160 names. -/
inductive Reg160 where
  | quot | off
deriving DecidableEq, Repr

/-- A line of a host program: the operations of R72, then the pseudo-operations of R73. -/
inductive HostLine where
  | wr (r : Reg) (v : Word)
  | rd (r : Reg) (x : Nat)
  | poll (r : Reg) (mask val : Word)
  | cmd (i : Instr)
  | wr128 (r : Reg128) (v : Counter)
  | wr160Off (v : Wide)
  | rd128 (r : Reg128) (x : Nat)
  | rd160 (r : Reg160) (x : Nat)
  | wait | clrDone | clrOvr | srst | setup
deriving DecidableEq, Repr

/-- A change of the reset pin's level (R42, R129): it comes once `after` further steps of the other agents have passed. -/
structure PinChange where
  after : Nat
  level : Bool
deriving DecidableEq, Repr

end Sys2Proof
end

