-- ==== Sys2Proof/Machine/State.lean ====
section
/-! DEFINITION. The state of one IVC instance: the record of 10_state.md R46, the ports of R42 that outlast a step, and the
host agent's side (00_scope.md R17). Plain data throughout. -/

namespace Sys2Proof.Machine

/-- The sequencing state (R19). -/
inductive Fsm where
  | idle | busy
deriving DecidableEq, Repr

/-- The operand latch `L` (R40, R46): no bus access can read it, and it means something only while BUSY. -/
structure Latch where
  cmd : Word
  keylen : Word
  ivlen : Word
  neg : Bool
  iv : Counter
  blk : Counter
  off : Wide
  ivout : Counter
deriving DecidableEq, Repr

/-- A bus response (R42). -/
inductive Response where
  | ok | error
deriving DecidableEq, Repr

/-- The port's answer to an access: a read gives `rdata` with its response, a write the response alone (R50, R51). -/
inductive Reply where
  | read (resp : Response) (rdata : Word)
  | write (resp : Response)
deriving DecidableEq, Repr

/-- The fields from `fsm` to `latch` are the spec's own record (R46), under its names. -/
structure State where
  /-- FSM (R19). -/
  fsm : Fsm
  /-- CTRL.IE (R24). -/
  ie : Bool
  /-- STATUS.DONE (R26). -/
  done : Bool
  /-- STATUS.OVR (R26). -/
  ovr : Bool
  /-- ERR.CAUSE (R27). -/
  cause : BitVec 4
  /-- ERR.MASK, bits 11:8 of the word (R27). -/
  mask : BitVec 4
  /-- KEYLEN (R28). -/
  keylen : Word
  /-- IVLEN (R29). -/
  ivlen : Word
  /-- OFFSIGN.NEG (R30). -/
  neg : Bool
  /-- IV_IN0 to IV_IN3 (R31). -/
  ivIn : Counter
  /-- BLK0 to BLK3 (R32). -/
  blk : Counter
  /-- OFF0 to OFF4 (R33). -/
  off : Wide
  /-- IV_OUT0 to IV_OUT3 (R34). -/
  ivOut : Counter
  /-- QUOT0 to QUOT4 (R35). -/
  quot : Wide
  /-- RESID.R (R36). -/
  resid : BitVec 4
  /-- The operand latch L (R40). -/
  latch : Latch
  /-- The level of the input pin `rst` (R42, R129; log 4). -/
  rst : Bool
  /-- The port's last answer (R42; log 9). -/
  reply : Option Reply
  /-- The host accesses still to come, in order (R61, R74; log 5). The model's own. -/
  inputs : List BusOp
  /-- The changes of the reset pin still to come, each with the steps of the other agents before it (R17, R129; log 22).
  The model's own. -/
  pins : List PinChange
  /-- The host's variables (R72; log 8), keys strictly rising. The model's own. -/
  vars : List (Nat × Word)
  /-- A host-program fault was recorded (R118; log 3). The model's own. -/
  hostFault : Bool
  /-- The steps still to pass before the completion step (R106; log 1). The model's own. -/
  due : Nat
  /-- Commands accepted so far: the index of the next latency draw (log 16). The model's own. -/
  issued : Nat
  /-- Reset steps so far: the index of the next latch draw (log 16). The model's own. -/
  resets : Nat
deriving DecidableEq, Repr

/-- Why the machine stops with a fault. -/
inductive Fault where
  /-- Raised by a host access at this instance after a host access there got an ERROR response (R118: "A program that receives one has gone
  wrong"; 93_implementation_defined.md I12: fault, recorded). Safe: the model stops where the port would still answer. -/
  | hostProgram
deriving DecidableEq, Repr

/-- Why the machine refuses. -/
inductive Refusal where
  /-- Raised by an arm of `exec` that has no meaning yet. Safe. No arm does. -/
  | notModelled (mnemonic : String)
  /-- Raised by a host access while `rst` is high (R134: "A model that admitted one would invent a response, so it
  refuses it"; I11: refuse). Safe. -/
  | accessUnderReset
deriving DecidableEq, Repr

/-- The latch in `State.reset`. R44 leaves it unspecified; zero is a DESIGN CHOICE (log 2). -/
def Latch.zero : Latch :=
  { cmd := 0, keylen := 0, ivlen := 0, neg := false, iv := 0, blk := 0, off := 0, ivout := 0 }

/-- The machine right after reset (R44), the pin released, nothing to come at the port or the pin. -/
def State.reset : State :=
  { fsm := .idle, ie := false, done := false, ovr := false, cause := 0, mask := 0,
    keylen := 0, ivlen := 0, neg := false, ivIn := 0, blk := 0, off := 0,
    ivOut := 0, quot := 0, resid := 0, latch := Latch.zero,
    rst := false, reply := none, inputs := [], pins := [], vars := [], hostFault := false,
    due := 0, issued := 0, resets := 0 }

end Sys2Proof.Machine
end

