-- ==== Sys2Proof/Machine/Flags.lean ====
section
/-! DEFINITION. The condition state: the validation checks and the violation mask (40_validation.md R75 to R79), the cause it
gives, STATUS.BUSY and STATUS.ERR (10_state.md R26), and the interrupt line (60_exceptions.md R120). -/

namespace Sys2Proof.Machine

/-- R76: the key check fails unless the length is exactly 32 bytes. -/
def keyLengthBad (keylen : Word) : Bool := keylen != 32#32

/-- R77: the IV check fails unless the length is exactly 16 bytes. -/
def ivLengthBad (ivlen : Word) : Bool := ivlen != 16#32

/-- R78: the offset check fails exactly when the offset is negative; minus zero passes. -/
def offsetNegative (neg : Bool) (off : Wide) : Bool := neg && off != 0#160

/-- A violation mask from its four bits: m[0] InvalidKeyLength, m[1] InvalidIvLength, m[2] NegativeOffset, m[3]
IllegalCommand (R75, R111). -/
def maskOf (key iv offset illegal : Bool) : BitVec 4 :=
  BitVec.ofBool illegal ++ BitVec.ofBool offset ++ BitVec.ofBool iv ++ BitVec.ofBool key

/-- R75's `checkMask`: bit 3 is always 0. -/
def checkMask (keylen ivlen : Word) (neg : Bool) (off : Wide) : BitVec 4 :=
  maskOf (keyLengthBad keylen) (ivLengthBad ivlen) (offsetNegative neg off) false

/-- R79's `causeOf`: the first failing check in the fixed order. -/
def causeOf (m : BitVec 4) : BitVec 4 :=
  if m.getLsbD 3 then 4#4
  else if m.getLsbD 0 then 1#4
  else if m.getLsbD 1 then 2#4
  else if m.getLsbD 2 then 3#4
  else 0#4

/-- STATUS.BUSY (R26). -/
def State.busy (s : State) : Bool := s.fsm == .busy

/-- STATUS.ERR (R26): `ERR.CAUSE ≠ 0`. -/
def State.errFlag (s : State) : Bool := s.cause != 0#4

/-- The interrupt line (R120): level-sensitive, active high. -/
def irq (s : State) : Bool := s.ie && s.done

end Sys2Proof.Machine
end

