-- ==== Sys2Proof/Machine/Operands.lean ====
section
/-! DEFINITION. Operand assembly and the arithmetic of the block: the words of multi-word values (10_state.md R20, 30_encoding.md
R70), byte strings (00_scope.md R12), the counter increment (41_counter.md R82, R87), the divider (42_divider.md R90, R91), the
value the offset registers present (10_state.md R37) and how the host presents its integers (70_reset_and_hazards.md R142). -/

namespace Sys2Proof.Machine

/-! ### Words of a multi-word value (R20) -/

/-- `V = W0 ++ W1 ++ W2 ++ W3`. -/
def join4 (w0 w1 w2 w3 : Word) : Counter := w0 ++ w1 ++ w2 ++ w3

/-- `V = W0 ++ … ++ W4`. -/
def join5 (w0 w1 w2 w3 w4 : Word) : Wide := w0 ++ w1 ++ w2 ++ w3 ++ w4

/-- `Wj = V[32·(4-j)-1 : 32·(3-j)]` of a 128-bit value. -/
def word4 (v : Counter) (j : Fin 4) : Word := v.extractLsb' (32 * (3 - j.val)) 32

/-- `Wj = V[32·(5-j)-1 : 32·(4-j)]` of a 160-bit value. -/
def word5 (v : Wide) (j : Fin 5) : Word := v.extractLsb' (32 * (4 - j.val)) 32

/-- Word `j` of `k` if it is the word written, the old one otherwise. -/
def pickWord {n : Nat} (j k : Fin n) (new old : Word) : Word := if k = j then new else old

/-- The 128-bit value after a write of word `j` (R52, R57: the other words keep their old value). -/
def setWord4 (v : Counter) (j : Fin 4) (w : Word) : Counter :=
  join4 (pickWord j 0 w (word4 v 0)) (pickWord j 1 w (word4 v 1)) (pickWord j 2 w (word4 v 2))
    (pickWord j 3 w (word4 v 3))

/-- The 160-bit value after a write of word `j`. -/
def setWord5 (v : Wide) (j : Fin 5) (w : Word) : Wide :=
  join5 (pickWord j 0 w (word5 v 0)) (pickWord j 1 w (word5 v 1)) (pickWord j 2 w (word5 v 2))
    (pickWord j 3 w (word5 v 3)) (pickWord j 4 w (word5 v 4))

/-! ### Byte strings (R12) -/

/-- `BE(b)`: byte 0 is the most significant. -/
def beValue : List Byte → Nat
  | [] => 0
  | b :: bs => b.toNat * 2 ^ (8 * bs.length) + beValue bs

/-- `bytesBE_n(v)`: the `n` bytes whose BE value is `v mod 2^(8n)`. -/
def bytesBE : Nat → Nat → List Byte
  | 0, _ => []
  | n + 1, v => BitVec.ofNat 8 (v / 2 ^ (8 * n)) :: bytesBE n v

/-- The bytes of a bus word, bits 31:24 first (R20: `b[4j]` is the top byte of IV_INj). -/
def wordBytes (w : Word) : List Byte :=
  [w.extractLsb' 24 8, w.extractLsb' 16 8, w.extractLsb' 8 8, w.extractLsb' 0 8]

/-- The 16 bytes `b[0..15]` that the four words of a 128-bit value hold (R20, R141). -/
def counterBytes (v : Counter) : List Byte :=
  wordBytes (word4 v 0) ++ wordBytes (word4 v 1) ++ wordBytes (word4 v 2) ++ wordBytes (word4 v 3)

/-! ### The counter increment (41_counter.md) -/

/-- R82's `inc128`: `(v + b) mod 2^128`. -/
def inc128 (v : Counter) (b : Nat) : Counter := BitVec.ofNat 128 (v.toNat + b)

/-- R82's `incrementIv` on byte strings. -/
def incrementIv (iv : List Byte) (blocks : Nat) : List Byte :=
  bytesBE 16 ((beValue iv + blocks) % 2 ^ 128)

/-- R87's carry chain over pairs of bytes, most significant pair first: the output bytes and the carry out of the first
pair. The recursion reaches the last pair before it adds, so the chain runs from byte 15 down to byte 0. -/
def carryChain : List (Byte × Byte) → List Byte × Nat
  | [] => ([], 0)
  | (x, y) :: rest =>
    let r := carryChain rest
    let s := x.toNat + y.toNat + r.2
    (BitVec.ofNat 8 (s % 256) :: r.1, s / 256)

/-- R87's byte-serial increment; the final carry is discarded (R83). -/
def byteSerialIncrement (iv : List Byte) (blocks : Nat) : List Byte :=
  (carryChain (iv.zip (bytesBE 16 (blocks % 2 ^ 128)))).1

/-! ### The divider (42_divider.md) -/

/-- R90's `divmod16`. -/
def divmod16 (o : Nat) : Nat × Nat := (o / 16, o % 16)

/-- R91: `zext_160(off[159:4])`. -/
def quotientOf (off : Wide) : Wide := (off.extractLsb' 4 156).setWidth 160

/-- R91: `off[3:0]`. -/
def residualOf (off : Wide) : BitVec 4 := off.extractLsb' 0 4

/-- R96, R98: `(iv + (q mod 2^128)) mod 2^128`. -/
def derivedIv (iv : Counter) (off : Wide) : Counter := inc128 iv ((quotientOf off).toNat % 2 ^ 128)

/-! ### The offset the registers present (R37, R142) -/

/-- R37's `offsetValue`: minus zero is zero. -/
def offsetValue (neg : Bool) (off : Wide) : Int :=
  if neg = true ∧ off ≠ 0#160 then -(off.toNat : Int) else (off.toNat : Int)

/-- R142: the sign and magnitude a host writes for an offset: `NEG = 1` for a negative one, `OFF = |o| mod 2^160`. -/
def presentOffset (o : Int) : Bool × Wide := (decide (o < 0), BitVec.ofNat 160 o.natAbs)

/-- R142: the same, but `OFF = 1` for a negative offset of magnitude 2^160 or more, so that NegativeOffset is kept. -/
def presentOffsetKeepingError (o : Int) : Bool × Wide :=
  if o < 0 ∧ 2 ^ 160 ≤ o.natAbs then (true, 1#160) else presentOffset o

/-- R142, R85: a host presents a block count `b` as `b mod 2^128`. -/
def presentBlocks (b : Nat) : Counter := BitVec.ofNat 128 b

end Sys2Proof.Machine
end

