-- ==== Sys2Proof/Machine/Ops.lean ====
section
/-! DEFINITION. The named operations on the block's state: completion and the recording of an error (44_control.md R106,
60_exceptions.md R115), acceptance (R105), overrun (R107) and reset (70_reset_and_hazards.md R129, R130). An error is no trap:
there is no vector, no saved state and no mode (R116), and no return from one (R117), so `completeWith` is all there is of
taking one. -/

namespace Sys2Proof.Machine

/-! ### The ports and the host's side -/

/-- The port answers (R50, R51). -/
def setReply (x : Reply) (s : State) : State := { s with reply := some x }

/-- The reset pin takes a level (R42). -/
def setRst (level : Bool) (s : State) : State := { s with rst := level }

/-- The host accesses still to come. -/
def setInputs (rest : List BusOp) (s : State) : State := { s with inputs := rest }

/-- The changes of the reset pin still to come. -/
def setPins (rest : List PinChange) (s : State) : State := { s with pins := rest }

/-- A host-program fault is recorded, and never cleared (R118; log 3). -/
def recordHostFault (s : State) : State := { s with hostFault := true }

/-! ### Completion -/

/-- R106: what every completion does, with the violation mask of the command's pseudocode: ERR, DONE and FSM. The latch keeps its
contents into IDLE, where R40 gives it no meaning and I10 any value: DESIGN CHOICE (log 2); no rule reads it there. -/
def complete (m : BitVec 4) (s : State) : State :=
  { s with mask := m, cause := causeOf m, done := true, fsm := .idle }

/-- R106 with R115: the command's outputs are written when no check failed; on an error none of them is. -/
def completeWith (m : BitVec 4) (outputs : State → State) (s : State) : State :=
  complete m (if m = 0#4 then outputs s else s)

/-! ### Acceptance and overrun -/

/-- What acceptance of the word `w` loads the latch with (R105, R40, R70). -/
def latchOf (w : Word) (s : State) : Latch :=
  { cmd := w, keylen := s.keylen, ivlen := s.ivlen, neg := s.neg,
    iv := s.ivIn, blk := s.blk, off := s.off, ivout := s.ivOut }

/-- R105's change of the block: the latch takes the word and every operand register, DONE is cleared, FSM is BUSY. -/
def loadLatch (w : Word) (s : State) : State :=
  { s with latch := latchOf w s, done := false, fsm := .busy }

/-- Acceptance (R105), with a draw of LAT (R106, R143; log 1). The draw depends on the count of acceptances alone, so two
instances, or two runs, at one count get the same one, whatever the command, where R9 lets LAT differ: DESIGN CHOICE (log 23). -/
def accept (w : Word) (s : State) : State :=
  { loadLatch w s with due := Config.latency s.issued, issued := s.issued + 1 }

/-- The effect of a write of `w` to CMD: acceptance while IDLE (R105), overrun while BUSY (R107: the word is dropped). -/
def issue (w : Word) (s : State) : State :=
  match s.fsm with
  | .idle => accept w s
  | .busy => { s with ovr := true }

/-! ### Reset -/

/-- The latch after the n-th reset step: unspecified (R44; log 2). As with `accept`, instances and runs share the draws (log 23). -/
def drawnLatch (n : Nat) : Latch :=
  { cmd := Config.latchCmdDraw n, keylen := Config.latchKeylenDraw n, ivlen := Config.latchIvlenDraw n,
    neg := Config.latchNegDraw n, iv := Config.latchIvDraw n, blk := Config.latchBlkDraw n,
    off := Config.latchOffDraw n, ivout := Config.latchIvoutDraw n }

/-- The reset event (R129, R44), by the pin or by CTRL.SRST (R130). A command in flight is abandoned (R131). The host's side
is not the block's, and stays. -/
def applyReset (s : State) : State :=
  { s with
    fsm := .idle, ie := false, done := false, ovr := false, cause := 0, mask := 0
    keylen := 0, ivlen := 0, neg := false, ivIn := 0, blk := 0, off := 0
    ivOut := 0, quot := 0, resid := 0
    latch := drawnLatch s.resets
    due := 0
    resets := s.resets + 1 }

/-- Between power-on and the first reset (R45, I9): every piece of the block's state is a draw, so `draw` is an argument, and
the facts of R47 need not hold. The level of the pin `rst`, which the spec does not give there, is the draw's too. The host's
side, and what is still to come at the pin, are as right after reset: DESIGN CHOICE (log 11). The machine of Sys2Proof.core starts
at State.reset. -/
def powerOn (draw : State) : State :=
  { draw with
    reply := State.reset.reply, inputs := State.reset.inputs, pins := State.reset.pins
    vars := State.reset.vars, hostFault := State.reset.hostFault, issued := State.reset.issued, resets := State.reset.resets }

end Sys2Proof.Machine
end

