-- ==== Sys2Proof/Machine/Control.lean ====
section
/-! DEFINITION. NOP (44_control.md R104) and the completion of an illegal word (R108). A meaning is the command's completion
(R106): it reads the latch and answers the state after it. It runs only where the block's step calls it, while BUSY. -/

namespace Sys2Proof.Machine

/-- NOP (R104): nothing but completing; ERR is cleared. -/
def execNop (s : State) : Host.Outcome State Fault Refusal :=
  .next (completeWith (maskOf false false false false) id s)

/-- ILLEGAL (R108): IllegalCommand and only that; no validation check runs and no output is written. -/
def execIllegal (s : State) : Host.Outcome State Fault Refusal :=
  .next (completeWith (maskOf false false false true) id s)

end Sys2Proof.Machine
end

