-- ==== Sys2Proof/Machine/Counter.lean ====
section
/-! DEFINITION. INCREMENT (41_counter.md R88) and COPYBACK (R89). -/

namespace Sys2Proof.Machine

/-- INCREMENT (R88): only IVLEN is checked; IV_OUT becomes `(L.iv + L.blk) mod 2^128`. -/
def execIncrement (s : State) : Host.Outcome State Fault Refusal :=
  .next (completeWith (maskOf false (ivLengthBad s.latch.ivlen) false false)
    (fun t => { t with ivOut := inc128 s.latch.iv s.latch.blk.toNat }) s)

/-- COPYBACK (R89): IV_IN becomes the IV_OUT of acceptance; no check runs. -/
def execCopyback (s : State) : Host.Outcome State Fault Refusal :=
  .next (completeWith (maskOf false false false false) (fun t => { t with ivIn := s.latch.ivout }) s)

end Sys2Proof.Machine
end

