-- ==== Sys2Proof/Machine/Divider.lean ====
section
/-! DEFINITION. DIVIDE (42_divider.md R95). -/

namespace Sys2Proof.Machine

/-- DIVIDE (R95): only the offset's sign is checked; QUOT and RESID are written from the latched offset. -/
def execDivide (s : State) : Host.Outcome State Fault Refusal :=
  .next (completeWith (maskOf false false (offsetNegative s.latch.neg s.latch.off) false)
    (fun t => { t with quot := quotientOf s.latch.off, resid := residualOf s.latch.off }) s)

end Sys2Proof.Machine
end

