-- ==== Sys2Proof/Machine/Position.lean ====
section
/-! DEFINITION. POSITION (43_position.md R98). -/

namespace Sys2Proof.Machine

/-- POSITION (R96, R98): validation, then division, then the counter increment by the quotient. BLK is not read. -/
def execPosition (s : State) : Host.Outcome State Fault Refusal :=
  .next (completeWith (checkMask s.latch.keylen s.latch.ivlen s.latch.neg s.latch.off)
    (fun t => { t with
      quot := quotientOf s.latch.off
      resid := residualOf s.latch.off
      ivOut := derivedIv s.latch.iv s.latch.off }) s)

end Sys2Proof.Machine
end

