-- ==== Sys2Proof/Machine/Validate.lean ====
section
/-! DEFINITION. VALIDATE (40_validation.md R81). -/

namespace Sys2Proof.Machine

/-- VALIDATE (R81): the three checks on the latched operands; nothing is computed or written but ERR. -/
def execValidate (s : State) : Host.Outcome State Fault Refusal :=
  .next (completeWith (checkMask s.latch.keylen s.latch.ivlen s.latch.neg s.latch.off) id s)

end Sys2Proof.Machine
end

