-- ==== Sys2Proof/Machine/Dispatch.lean ====
section
/-! DEFINITION. One arm per command of the opcode table (30_encoding.md R65): its completion (44_control.md R106). -/

namespace Sys2Proof.Machine

def exec (i : Instr) (s : State) : Host.Outcome State Fault Refusal :=
  match i with
  | .nop => Sys2Proof.Machine.execNop s
  | .validate => Sys2Proof.Machine.execValidate s
  | .divide => Sys2Proof.Machine.execDivide s
  | .increment => Sys2Proof.Machine.execIncrement s
  | .position => Sys2Proof.Machine.execPosition s
  | .copyback => Sys2Proof.Machine.execCopyback s

end Sys2Proof.Machine
end

