-- ==== Sys2Proof/WellFormed.lean ====
section
/-! DEFINITION. The checks on syntax. A command has no operand fields, so there is nothing in one to check (30_encoding.md
R64); a bus access is well formed when the port takes it (20_memory.md R56); a line of a host program when R73 admits it. -/

namespace Sys2Proof

/-- R64: no immediates, no register-number fields and no mode bits; every command of the table is well formed. -/
def Instr.wf : Instr → Bool
  | .nop => true
  | .validate => true
  | .divide => true
  | .increment => true
  | .position => true
  | .copyback => true

/-- R56: an access the port takes is 4 bytes wide and at a multiple of 4. A POLL reads 4 bytes, so only its offset counts. -/
def BusOp.wf : BusOp → Bool
  | .read a n _ => n == 4 && a.toNat % 4 == 0
  | .write a n _ => n == 4 && a.toNat % 4 == 0
  | .poll a _ _ => a.toNat % 4 == 0

/-- R73: WR128 writes IV_IN or BLK; there is no WR128 of IV_OUT. -/
def HostLine.wf : HostLine → Bool
  | .wr128 r _ => r != .ivOut
  | .wr .. | .rd .. | .poll .. | .cmd .. | .wr160Off .. | .rd128 .. | .rd160 .. => true
  | .wait | .clrDone | .clrOvr | .srst | .setup => true

end Sys2Proof
end

