-- ==== Sys2Proof/Decode.lean ====
section
/-! DEFINITION. The command decoder, total on all 2^32 words (30_encoding.md R67), and the encoder (R64, R65). A word that is
no command is rejected by name; the block completes it as ILLEGAL (44_control.md R108). -/

namespace Sys2Proof

/-- Why a CMD word is ILLEGAL (R108). The spec gives both reasons one effect; the names are the model's (log 14). -/
inductive IllegalWord where
  /-- `RSV ≠ 0` (R66), whatever the OPC. -/
  | reservedBits
  /-- `RSV = 0` and `OPC ∈ 0x6..0xF` (R65). -/
  | unassignedOpcode
deriving DecidableEq, Repr

/-- `CMD.OPC`, bits 3:0 (R64). -/
def opcField (w : Word) : BitVec 4 := w.extractLsb' 0 4

/-- `CMD.RSV`, bits 31:4 (R64). -/
def rsvField (w : Word) : BitVec 28 := w.extractLsb' 4 28

/-- The opcode map of R65. -/
def decodeOpc (opc : BitVec 4) : Except IllegalWord Instr :=
  match opc.toNat with
  | 0x0 => .ok .nop
  | 0x1 => .ok .validate
  | 0x2 => .ok .divide
  | 0x3 => .ok .increment
  | 0x4 => .ok .position
  | 0x5 => .ok .copyback
  | _ => .error .unassignedOpcode

/-- R67's `decode`. -/
def decode (w : Word) : Except IllegalWord Instr :=
  if rsvField w = 0#28 then decodeOpc (opcField w) else .error .reservedBits

/-- The OPC of a command (R65). -/
def opcOf : Instr → BitVec 4
  | .nop => 0x0#4
  | .validate => 0x1#4
  | .divide => 0x2#4
  | .increment => 0x3#4
  | .position => 0x4#4
  | .copyback => 0x5#4

/-- The CMD word of a command: its match value `zext_32(OPC)` (R65). -/
def encode (i : Instr) : Word := (opcOf i).setWidth 32

/-- The command read from a word numbered as spec/opcode_table.json numbers it: one 32-bit bus word, bit 0 the least
significant. A command is exactly one such word (R64, R68), so there is none in more than 32 bits (log 19). -/
def decodeTableWord (nbits w : Nat) : Option Instr :=
  if nbits ≤ 32 then (decode (BitVec.ofNat 32 (w % 2 ^ nbits))).toOption else none

end Sys2Proof
end

