-- ==== Sys2Proof/Machine/Window.lean ====
section
/-! DEFINITION. The register window: the offsets of the registers (10_state.md R21), the value each one reads as (R20 to R36)
and the effect of a write to it (20_memory.md R51 to R55), and the two host accesses (R50, R51). -/

namespace Sys2Proof.Machine

/-- The byte offset of a register (R21). -/
def regOffset : Reg → WindowOffset
  | .id => 0x00#8
  | .ctrl => 0x04#8
  | .cmd => 0x08#8
  | .status => 0x0C#8
  | .err => 0x10#8
  | .keylen => 0x14#8
  | .ivlen => 0x18#8
  | .offsign => 0x1C#8
  | .ivIn j => BitVec.ofNat 8 (0x20 + 4 * j.val)
  | .blk j => BitVec.ofNat 8 (0x30 + 4 * j.val)
  | .off j => BitVec.ofNat 8 (0x40 + 4 * j.val)
  | .ivOut j => BitVec.ofNat 8 (0x60 + 4 * j.val)
  | .quot j => BitVec.ofNat 8 (0x70 + 4 * j.val)
  | .resid => 0x84#8

/-- The register at a window offset (R21); `none` at a reserved offset (R55) and inside a word. -/
def regAt (a : WindowOffset) : Option Reg :=
  match a.toNat with
  | 0x00 => some .id
  | 0x04 => some .ctrl
  | 0x08 => some .cmd
  | 0x0C => some .status
  | 0x10 => some .err
  | 0x14 => some .keylen
  | 0x18 => some .ivlen
  | 0x1C => some .offsign
  | 0x20 => some (.ivIn 0)
  | 0x24 => some (.ivIn 1)
  | 0x28 => some (.ivIn 2)
  | 0x2C => some (.ivIn 3)
  | 0x30 => some (.blk 0)
  | 0x34 => some (.blk 1)
  | 0x38 => some (.blk 2)
  | 0x3C => some (.blk 3)
  | 0x40 => some (.off 0)
  | 0x44 => some (.off 1)
  | 0x48 => some (.off 2)
  | 0x4C => some (.off 3)
  | 0x50 => some (.off 4)
  | 0x60 => some (.ivOut 0)
  | 0x64 => some (.ivOut 1)
  | 0x68 => some (.ivOut 2)
  | 0x6C => some (.ivOut 3)
  | 0x70 => some (.quot 0)
  | 0x74 => some (.quot 1)
  | 0x78 => some (.quot 2)
  | 0x7C => some (.quot 3)
  | 0x80 => some (.quot 4)
  | 0x84 => some .resid
  | _ => none

/-- The constant of the ID register (R10, R23). -/
def idValue : Word := 0x49564331#32

/-- CTRL as a word (R24): IE in bit 1; SRST reads 0. -/
def ctrlWord (s : State) : Word := 0#30 ++ BitVec.ofBool s.ie ++ 0#1

/-- STATUS as a word (R26): BUSY, DONE, ERR and OVR in bits 0 to 3. -/
def statusWord (s : State) : Word :=
  0#28 ++ BitVec.ofBool s.ovr ++ BitVec.ofBool s.errFlag ++ BitVec.ofBool s.done ++ BitVec.ofBool s.busy

/-- ERR as a word (R27, R71): MASK in bits 11:8, CAUSE in bits 3:0. -/
def errWord (s : State) : Word := 0#20 ++ s.mask ++ 0#4 ++ s.cause

/-- OFFSIGN as a word (R30): NEG in bit 0. -/
def offsignWord (s : State) : Word := 0#31 ++ BitVec.ofBool s.neg

/-- `readValue` of R50: a register's value with its reserved bits 0 (R22). -/
def readReg : Reg → State → Word
  | .id, _ => idValue
  | .ctrl, s => ctrlWord s
  | .cmd, _ => 0#32
  | .status, s => statusWord s
  | .err, s => errWord s
  | .keylen, s => s.keylen
  | .ivlen, s => s.ivlen
  | .offsign, s => offsignWord s
  | .ivIn j, s => word4 s.ivIn j
  | .blk j, s => word4 s.blk j
  | .off j, s => word5 s.off j
  | .ivOut j, s => word4 s.ivOut j
  | .quot j, s => word5 s.quot j
  | .resid, s => s.resid.setWidth 32

/-- A write to CTRL: SRST performs the soft reset and the other bits are ignored (R130); else IE takes bit 1 (R24). -/
def writeCtrl (v : Word) (s : State) : State :=
  if v.getLsbD 0 then applyReset s else { s with ie := v.getLsbD 1 }

/-- A write to STATUS: DONE and OVR are write-1-to-clear, every other bit is ignored (R54). -/
def writeStatus (v : Word) (s : State) : State :=
  { s with done := s.done && !v.getLsbD 1, ovr := s.ovr && !v.getLsbD 3 }

/-- `writeEffect` of R51. Operand registers take the word whether IDLE or BUSY (R52); read-only registers ignore it (R53). -/
def writeReg : Reg → Word → State → State
  | .id, _, s => s
  | .ctrl, v, s => writeCtrl v s
  | .cmd, v, s => issue v s
  | .status, v, s => writeStatus v s
  | .err, _, s => s
  | .keylen, v, s => { s with keylen := v }
  | .ivlen, v, s => { s with ivlen := v }
  | .offsign, v, s => { s with neg := v.getLsbD 0 }
  | .ivIn j, v, s => { s with ivIn := setWord4 s.ivIn j v }
  | .blk j, v, s => { s with blk := setWord4 s.blk j v }
  | .off j, v, s => { s with off := setWord5 s.off j v }
  | .ivOut _, _, s => s
  | .quot _, _, s => s
  | .resid, _, s => s

/-- R56: the accesses the port takes. -/
def accessOk (a : WindowOffset) (n : Nat) : Bool := n == 4 && a.toNat % 4 == 0

/-- The data and response of `MemRead(a, n)` (R50); a reserved offset reads 0 (R55). -/
def readAnswer (a : WindowOffset) (n : Nat) (s : State) : Response × Word :=
  if accessOk a n then
    match regAt a with
    | some r => (.ok, readReg r s)
    | none => (.ok, 0#32)
  else (.error, 0#32)

/-- `MemRead(a, n)` (R50). No block state changes (R58); the answer stands at the port, and an ERROR is recorded as a
fault of the host program (R118; log 3). -/
def busRead (a : WindowOffset) (n : Nat) (s : State) : State :=
  { s with
    reply := some (.read (readAnswer a n s).1 (readAnswer a n s).2)
    hostFault := s.hostFault || !accessOk a n }

/-- `MemWrite(a, n, v)` (R51). A reserved offset ignores the word (R55); an access the port does not take changes no block
state (R56) and is recorded as a fault of the host program (R118; log 3). -/
def busWrite (a : WindowOffset) (n : Nat) (v : Word) (s : State) : State :=
  if accessOk a n then
    match regAt a with
    | some r => setReply (.write .ok) (writeReg r v s)
    | none => setReply (.write .ok) s
  else setReply (.write .error) (recordHostFault s)

end Sys2Proof.Machine
end

