-- ==== Sys2Proof/Machine/HostProgram.lean ====
section
/-! DEFINITION. The host agent: the expansion of the host program notation (30_encoding.md R72, R73), the encoding of its
operations as bus transactions (R74), the host's variables, and what performing one operation at the port does
(20_memory.md R50, R51). -/

namespace Sys2Proof.Machine

/-! ### Expansion (R72, R73) -/

/-- `WR <reg>, <v32>` (R72). -/
def wrOp (r : Reg) (v : Word) : BusOp := .write (regOffset r) 4 v

/-- `RD <reg> -> <name>` (R72). -/
def rdOp (r : Reg) (x : Nat) : BusOp := .read (regOffset r) 4 x

/-- `POLL <reg>, <mask>, <val>` (R72). -/
def pollOp (r : Reg) (mask val : Word) : BusOp := .poll (regOffset r) mask val

/-- Word register `j` of a 128-bit value (R21). -/
def reg128 (r : Reg128) (j : Fin 4) : Reg :=
  match r with
  | .ivOut => .ivOut j
  | .ivIn => .ivIn j
  | .blk => .blk j

/-- Word register `j` of a 160-bit value (R21). -/
def reg160 (r : Reg160) (j : Fin 5) : Reg :=
  match r with
  | .quot => .quot j
  | .off => .off j

/-- The bus operations a line of a host program stands for (R72, R73). The words of a wide read go to variables `x`,
`x + 1`, … in order, most significant first (log 8). -/
def expandLine : HostLine → List BusOp
  | .wr r v => [wrOp r v]
  | .rd r x => [rdOp r x]
  | .poll r mask val => [pollOp r mask val]
  | .cmd i => [wrOp .cmd (encode i)]
  | .wr128 r v =>
    [wrOp (reg128 r 0) (word4 v 0), wrOp (reg128 r 1) (word4 v 1), wrOp (reg128 r 2) (word4 v 2),
     wrOp (reg128 r 3) (word4 v 3)]
  | .wr160Off v =>
    [wrOp (.off 0) (word5 v 0), wrOp (.off 1) (word5 v 1), wrOp (.off 2) (word5 v 2), wrOp (.off 3) (word5 v 3),
     wrOp (.off 4) (word5 v 4)]
  | .rd128 r x =>
    [rdOp (reg128 r 0) x, rdOp (reg128 r 1) (x + 1), rdOp (reg128 r 2) (x + 2), rdOp (reg128 r 3) (x + 3)]
  | .rd160 r x =>
    [rdOp (reg160 r 0) x, rdOp (reg160 r 1) (x + 1), rdOp (reg160 r 2) (x + 2), rdOp (reg160 r 3) (x + 3),
     rdOp (reg160 r 4) (x + 4)]
  | .wait => [pollOp .status 0x1#32 0x0#32]
  | .clrDone => [wrOp .status 0x2#32]
  | .clrOvr => [wrOp .status 0x8#32]
  | .srst => [wrOp .ctrl 0x1#32]
  | .setup => [wrOp .keylen 32#32, wrOp .ivlen 16#32]

/-- A host program after expansion (R74). -/
def expandProgram (p : List HostLine) : List BusOp := p.flatMap expandLine

/-- The transaction of an operation (R72, R74); a POLL's is the read it repeats (log 18). -/
def transactionOf : BusOp → Transaction
  | .read a n _ => { dir := .r, offset := a, size := n, data := none }
  | .write a n v => { dir := .w, offset := a, size := n, data := some v }
  | .poll a _ _ => { dir := .r, offset := a, size := 4, data := none }

/-- The encoding of a host program (R74). -/
def encodeProgram (p : List HostLine) : List Transaction := (expandProgram p).map transactionOf

/-! ### The host's variables (R72) -/

/-- The value of a variable, if the host has read one into it. -/
def lookupVar (x : Nat) : List (Nat × Word) → Option Word
  | [] => none
  | (y, v) :: rest => if x = y then some v else lookupVar x rest

/-- Set a variable; the list keeps its keys strictly rising. -/
def assignVar (x : Nat) (v : Word) : List (Nat × Word) → List (Nat × Word)
  | [] => [(x, v)]
  | (y, u) :: rest =>
    if x < y then (x, v) :: (y, u) :: rest
    else if x = y then (x, v) :: rest
    else (y, u) :: assignVar x v rest

/-- The host's variable `x` takes a value (R72). -/
def setVar (x : Nat) (v : Word) (s : State) : State := { s with vars := assignVar x v s.vars }

/-- `n = n0 ++ n1 ++ n2 ++ n3` after RD128 into `x` (R73). -/
def wideVar128 (x : Nat) (vars : List (Nat × Word)) : Option Counter :=
  match lookupVar x vars, lookupVar (x + 1) vars, lookupVar (x + 2) vars, lookupVar (x + 3) vars with
  | some w0, some w1, some w2, some w3 => some (join4 w0 w1 w2 w3)
  | _, _, _, _ => none

/-- `n = n0 ++ … ++ n4` after RD160 into `x` (R73). -/
def wideVar160 (x : Nat) (vars : List (Nat × Word)) : Option Wide :=
  match lookupVar x vars, lookupVar (x + 1) vars, lookupVar (x + 2) vars, lookupVar (x + 3) vars,
      lookupVar (x + 4) vars with
  | some w0, some w1, some w2, some w3, some w4 => some (join5 w0 w1 w2 w3 w4)
  | _, _, _, _, _ => none

/-! ### Performing an operation at the port -/

/-- Perform `op`, the head of the host's accesses; `rest` is what it does after it. A POLL whose condition is not yet met stays
at the head and reads again (R72); each of its reads is a step of its own, so the block and the pin may move between two. -/
def performOp (op : BusOp) (rest : List BusOp) (s : State) : State :=
  match op with
  | .read a n x => setInputs rest (setVar x (readAnswer a n s).2 (busRead a n s))
  | .write a n v => setInputs rest (busWrite a n v s)
  | .poll a mask val =>
    if accessOk a 4 && (readAnswer a 4 s).2 &&& mask != val then busRead a 4 s
    else setInputs rest (busRead a 4 s)

end Sys2Proof.Machine
end

