-- ==== Sys2Proof/Machine/Agents.lean ====
section
/-! DEFINITION. The three agents (00_scope.md R17) and whose turn it is. The spec leaves the place of a completion among the
other agents' steps free, but for fairness (R17, R61, R106): `State.due` counts the steps still to pass before it (log 1). It lets
the pin move between any two steps (R129): `State.pins` counts the steps before its next change (log 22). -/

namespace Sys2Proof.Machine

/-- Whose step is next. -/
inductive Turn where
  /-- The reset pin takes a level (R129), and the changes to come after it. -/
  | pin (level : Bool) (rest : List PinChange)
  /-- The block: the completion of the command in flight (R106). -/
  | block
  /-- The host: one operation, and what it does after it (R50, R51). -/
  | host (op : BusOp) (rest : List BusOp)
  /-- Nothing moves. -/
  | quiet
deriving DecidableEq, Repr

/-- The turn of the block and the host, when no change of the pin is due. The block is enabled exactly while BUSY (R106), not
under reset (R131), and moves when its free delay is over; else the host's next access does. -/
def turnAtPort (s : State) : Turn :=
  if s.rst = false ∧ s.fsm = .busy ∧ s.due = 0 then .block
  else match s.inputs with
    | [] => .quiet
    | op :: rest => .host op rest

/-- The pin's agent is enabled at any time (R17), between any two steps of the others (R129): its next change moves as soon as
the steps before it have passed, whatever they were. One that meets a completion at the same moment goes first (R122). -/
def turn (s : State) : Turn :=
  match s.pins with
  | ⟨0, level⟩ :: rest => .pin level rest
  | _ => turnAtPort s

/-- A step of the block, of the host or of nobody passes before the pin's next change. -/
def tickPins : List PinChange → List PinChange
  | [] => []
  | c :: rest => { c with after := c.after - 1 } :: rest

/-- The pin's side of such a step. -/
def tick (s : State) : State := setPins (tickPins s.pins) s

/-- A step of another agent goes by: it counts towards the completion; while `rst` is high the block is held at the reset
state (R129). -/
def passStep (s : State) : State :=
  if s.rst then applyReset s else { s with due := s.due - 1 }

/-- The reset pin's step: a high level is the reset event (R129), a low one releases it. -/
def pinStep (level : Bool) (rest : List PinChange) (s : State) : State :=
  let t := setPins rest (passStep s)
  if level then setRst true (applyReset t) else setRst false t

/-- The block's step (R106): the latched word is decoded, and the command's completion runs. -/
def blockStep (s : State) : Host.Outcome State Fault Refusal :=
  match decode s.latch.cmd with
  | .ok i => exec i s
  | .error _ => execIllegal s

/-- The host's step. An access under reset is refused (R134). After an ERROR response the host program has stopped (R118,
log 3): it makes no further access, while a command in flight still goes on to its completion (log 17). The fault is recorded per
instance, so it stops every host of this one: DESIGN CHOICE (log 21). -/
def hostStep (op : BusOp) (rest : List BusOp) (s : State) : Host.Outcome State Fault Refusal :=
  if s.rst then .refused .accessUnderReset
  else if s.hostFault then
    (match s.fsm with
     | .busy => .next (passStep s)
     | .idle => .fault .hostProgram)
  else .next (performOp op rest (passStep s))

/-- The step of the agent whose turn it is. -/
def agentStep (t : Turn) (s : State) : Host.Outcome State Fault Refusal :=
  match t with
  | .pin level rest => .next (pinStep level rest s)
  | .block => blockStep (tick s)
  | .host op rest => hostStep op rest (tick s)
  | .quiet => .next (passStep (tick s))

/-- A command in flight whose completion is the very next step: the CMD write of `w` accepted (R105), with no delay left, and no
change of the pin to come. -/
def inFlight (w : Word) (s : State) : State := setPins [] (setRst false { loadLatch w s with due := 0 })

end Sys2Proof.Machine
end

