-- ==== Sys2Proof/Machine/Step.lean ====
section
/-! DEFINITION. One step of the machine: one atomic step of one agent (00_scope.md R17, 20_memory.md R61). -/

namespace Sys2Proof.Machine

/-- The machine's step. -/
def step (s : State) : Host.Outcome State Fault Refusal := agentStep (turn s) s

/-- `s` with the command word `w` in flight and due: the block fetches nothing (R19), and the word it decodes is the one
its latch holds (R40, R106). Stands for the host's accepted CMD write (log 5). -/
def State.withFetchWord (s : State) (nbits w : Nat) : State :=
  inFlight (BitVec.ofNat 32 (w % 2 ^ nbits)) s

end Sys2Proof.Machine
end

