-- ==== Sys2Proof/Machine/Platform.lean ====
section
/-! DEFINITION. A platform of independent IVC instances (60_exceptions.md R126), each with a register window at its own
BASE (00_scope.md R9, 20_memory.md R48, R59). N_INST is the length of the list and each BASE a field: both are arguments
(log 12). The machine of Sys2Proof.core is one instance. -/

namespace Sys2Proof.Machine

/-- One instance: its BASE and its state. -/
structure Placed where
  base : Nat
  core : State
deriving DecidableEq, Repr

/-- The windows of two bases do not meet: each is 256 bytes (R48). -/
def windowsApart (b c : Nat) : Bool := b + 256 ≤ c || c + 256 ≤ b

/-- R9, R59, R126: at least one instance, every BASE 256-byte aligned, and windows that do not meet (the bases are the
instances' only identifiers). -/
def platformWf (p : List Placed) : Bool :=
  !p.isEmpty && p.all (fun i => i.base % 256 == 0) &&
    decide (p.Pairwise (fun i j => windowsApart i.base j.base = true))

/-- A bus address lies in the window at `base` (R48). -/
def inWindow (base addr : Nat) : Bool := base ≤ addr && addr < base + 256

/-- The address offset the port of the window at `base` sees (R42: `a[7:0]`). -/
def portOffset (base addr : Nat) : WindowOffset := BitVec.ofNat 8 (addr - base)

/-- An operation arrives at an instance's port, behind what already waits there (R61). -/
def arrive (op : BusOp) (s : State) : State := setInputs (s.inputs ++ [op]) s

/-- A read of `n` bytes at a bus address reaches the instance whose window holds it, and no other (R48, R126). -/
def routeRead (addr n : Nat) (x : Nat) (p : List Placed) : List Placed :=
  p.map fun i => if inWindow i.base addr then { i with core := arrive (.read (portOffset i.base addr) n x) i.core } else i

/-- A write of `n` bytes at a bus address reaches the instance whose window holds it, and no other (R48, R126). -/
def routeWrite (addr n : Nat) (v : Word) (p : List Placed) : List Placed :=
  p.map fun i => if inWindow i.base addr then { i with core := arrive (.write (portOffset i.base addr) n v) i.core } else i

/-- The reset event with which the instances start together (R126, R129). It leaves each one's pin at the level it has: DESIGN
CHOICE (log 24). -/
def resetPlatform (p : List Placed) : List Placed :=
  p.map fun i => { i with core := applyReset i.core }

/-- Instance `k` takes a step; the others stand still (R126: no shared state, no signalling). A host-program fault is recorded at
the instance that answered ERROR and stops the accesses there only: DESIGN CHOICE where one host uses several instances or several
hosts one (log 21). The reset pin of an instance moves by that instance's own State.pins, so a reset after the joint start may
reach one instance alone, and whether it does the spec leaves open: DESIGN CHOICE (log 24). -/
def stepInstance (k : Nat) (p : List Placed) : Host.Outcome (List Placed) Fault Refusal :=
  match p[k]? with
  | none => .next p
  | some i =>
    match step i.core with
    | .next t => .next (p.set k { i with core := t })
    | .fault r => .fault r
    | .refused r => .refused r

end Sys2Proof.Machine
end

