-- ==== Sys2Proof/Safety.lean ====
section
/-! DEFINITION. The terms the claims use: the invariant of the reachable states (10_state.md R47), what a step is about to
do, and what counts as a run that lost nothing (60_exceptions.md R118, R119). -/

namespace Sys2Proof.Machine

/-- R47, R113: the pairs of CAUSE and MASK that some completion leaves; after a reset both are 0. -/
abbrev ErrLegal (s : State) : Prop := s.cause = causeOf s.mask ∧ (s.mask.toNat < 8 ∨ s.mask = 8#4)

/-- R47, R35: `quot[159:156] = 0`. -/
abbrev QuotLegal (s : State) : Prop := s.quot.toNat < 2 ^ 156

/-- R105, R106: a command in flight has not completed, so DONE is 0; in IDLE no completion is due. -/
abbrev HandshakeLegal (s : State) : Prop :=
  (s.fsm = .busy → s.done = false) ∧ (s.fsm = .idle → s.due = 0)

/-- R44: every register of the block holds its reset value (the latch is unspecified). -/
abbrev AtReset (s : State) : Prop :=
  s.fsm = .idle ∧ s.ie = false ∧ s.done = false ∧ s.ovr = false ∧ s.cause = 0#4 ∧ s.mask = 0#4 ∧
  s.keylen = 0#32 ∧ s.ivlen = 0#32 ∧ s.neg = false ∧ s.ivIn = 0#128 ∧ s.blk = 0#128 ∧ s.off = 0#160 ∧
  s.ivOut = 0#128 ∧ s.quot = 0#160 ∧ s.resid = 0#4

/-- The host's side is the same: all that a reset of the block leaves alone but the ports and what is still to come at them. -/
abbrev SameHost (s t : State) : Prop := t.vars = s.vars ∧ t.hostFault = s.hostFault ∧ t.issued = s.issued

/-- The host's variables stand in their canonical form: keys strictly rising. -/
abbrev varsWf (vars : List (Nat × Word)) : Prop := vars.Pairwise (fun p q => p.1 < q.1)

/-- The invariant every step keeps: R47's facts, the handshake, the pin held high holds the block at reset (R129). -/
abbrev Inv (s : State) : Prop :=
  ErrLegal s ∧ QuotLegal s ∧ HandshakeLegal s ∧ (s.rst = true → AtReset s) ∧ varsWf s.vars

/-- The step is the completion of the command in flight (R106). -/
def completesNow (s : State) : Bool := turn s == .block

/-- The host access that the step performs, if it performs one. -/
def accessNow (s : State) : Option BusOp :=
  match turn s with
  | .host op _ => if s.rst || s.hostFault then none else some op
  | _ => none

/-- The step writes `v` to register `r` (R51). -/
def writesNow (r : Reg) (v : Word) (s : State) : Prop := accessNow s = some (.write (regOffset r) 4 v)

/-- The step is, or is held by, a reset: the pin is or goes high (R129), or CTRL.SRST is written (R130). -/
def resetsNow (s : State) : Prop :=
  s.rst = true ∨ (∃ rest, turn s = .pin true rest) ∨ ∃ v, writesNow .ctrl v s ∧ v.getLsbD 0 = true

/-- A host access that resets the block: a 4-byte write to CTRL with bit 0 set (R130). -/
def isReset : BusOp → Bool
  | .write a n v => a == regOffset .ctrl && n == 4 && v.getLsbD 0
  | .read .. => false
  | .poll .. => false

/-- A reset is still to come: from the pin (R129), or from one of the host's next `k` accesses (R130). -/
def resetWithin (k : Nat) (s : State) : Bool := s.pins.any PinChange.level || (s.inputs.take k).any isReset

/-- A host program that met no fault of its own (R118) and lost no command (R119). -/
def hostProgramClean (s : State) : Bool := !s.hostFault && !s.ovr

/-- R138, R139, R140: the results of the last command may be read and used: no command in flight, and it succeeded. -/
def resultsUsable (s : State) : Bool := !s.busy && !s.errFlag

end Sys2Proof.Machine
end

