-- ==== Sys2Proof/Certificates/Slice0/Obligations.lean ====
section
/-! DEFINITION. The statements for the provers, each citing the rule of spec/ it formalises. None is about a program. -/

open Sys2Proof Sys2Proof.Machine

/-! ### Encoding -/

/-- Words written out from the opcode map (30_encoding.md R65) decode to the commands they stand for; words outside it are
rejected. -/
def Obligations.DecodeReadsTableWords : Prop :=
  decode 0x00000000#32 = .ok .nop ∧ decode 0x00000001#32 = .ok .validate ∧
  decode 0x00000002#32 = .ok .divide ∧ decode 0x00000003#32 = .ok .increment ∧
  decode 0x00000004#32 = .ok .position ∧ decode 0x00000005#32 = .ok .copyback ∧
  decode 0x00000006#32 = .error .unassignedOpcode ∧ decode 0x0000000F#32 = .error .unassignedOpcode ∧
  decode 0x00000014#32 = .error .reservedBits ∧ decode 0x80000001#32 = .error .reservedBits ∧
  decodeTableWord 32 4 = some .position

/-- R67: decoding is total, inverts the encoder, accepts exactly six words, and every word with RSV ≠ 0 or an OPC of 6 or
more is ILLEGAL. -/
def Obligations.DecodeAcceptsExactlySixWords : Prop :=
  (∀ i : Instr, i.wf = true → decode (encode i) = .ok i) ∧
  (∀ (w : Word) (i : Instr), decode w = .ok i → w = encode i) ∧
  encode .nop = 0#32 ∧ encode .validate = 1#32 ∧ encode .divide = 2#32 ∧ encode .increment = 3#32 ∧
  encode .position = 4#32 ∧ encode .copyback = 5#32 ∧
  (∀ w : Word, (∃ i, decode w = .ok i) ↔ w ∈ [0#32, 1#32, 2#32, 3#32, 4#32, 5#32]) ∧
  (∀ w : Word, (∃ e, decode w = .error e) ↔ (w.toNat / 16 ≠ 0 ∨ 6 ≤ w.toNat % 16))

/-! ### The step -/

/-- The block's step runs the command its latch holds, and an illegal word's completion for any other word (44_control.md R106);
one step passes before the pin's next change, if one is to come. That the completion comes when `due` is 0, and a change of the pin
that is due before it, is the model's rendering of the free order of the agents (log 1, log 22). -/
def Obligations.StepRunsTheLatchedCommand : Prop :=
  ∀ s : State, (∀ level rest, s.pins ≠ ⟨0, level⟩ :: rest) → s.rst = false → s.fsm = .busy → s.due = 0 →
    (∀ i : Instr, decode s.latch.cmd = .ok i →
      step s = exec i { s with pins := tickPins s.pins } ∧ (s.pins = [] → step s = exec i s)) ∧
    (∀ e : IllegalWord, decode s.latch.cmd = .error e → step s = execIllegal { s with pins := tickPins s.pins })

/-- R108: a latched word with RSV ≠ 0 or OPC ∈ 0x6..0xF completes with IllegalCommand and only that, and writes no output. The
latch keeps its contents into IDLE by the model's choice (log 2). -/
def Obligations.IllegalWordRecordsIllegalCommand : Prop :=
  ∀ s : State, (s.latch.cmd.toNat / 16 ≠ 0 ∨ 6 ≤ s.latch.cmd.toNat % 16) →
    blockStep s = .next { s with mask := 0b1000#4, cause := 4#4, done := true, fsm := .idle } ∧
    errWord { s with mask := 0b1000#4, cause := 4#4, done := true, fsm := .idle } = 0x00000804#32

/-! ### What each command does: its completion on every latch, with its whole frame

That the latch keeps its contents after a completion is, in each of these, the model's choice and no rule's (log 2; I10 leaves it
any value while IDLE). -/

/-- R104: NOP clears ERR and completes; a CMD write of 0 while BUSY is an overrun like any other. That the
latch is kept into IDLE is the model's choice (log 2). -/
def Obligations.NopClearsErr : Prop :=
  decode 0x00000000#32 = .ok .nop ∧
  (∀ s : State, exec .nop s = .next { s with mask := 0#4, cause := 0#4, done := true, fsm := .idle }) ∧
  (∀ s : State, s.fsm = .busy →
    busWrite 0x08#8 4 0x00000000#32 s = { s with ovr := true, reply := some (.write .ok) })

/-- R81: VALIDATE records every violated check in MASK and the first in CAUSE, and changes nothing else. That the
latch is kept into IDLE is the model's choice (log 2). -/
def Obligations.ValidateRecordsEveryViolation : Prop :=
  decode 0x00000001#32 = .ok .validate ∧
  ∀ s : State, exec .validate s = .next { s with
    mask := BitVec.ofNat 4 ((if s.latch.keylen.toNat ≠ 32 then 1 else 0) + (if s.latch.ivlen.toNat ≠ 16 then 2 else 0) +
      (if s.latch.neg = true ∧ s.latch.off.toNat ≠ 0 then 4 else 0))
    cause := if s.latch.keylen.toNat ≠ 32 then 1#4 else if s.latch.ivlen.toNat ≠ 16 then 2#4
      else if s.latch.neg = true ∧ s.latch.off.toNat ≠ 0 then 3#4 else 0#4
    done := true
    fsm := .idle }

/-- R88: INCREMENT adds the block count to the IV modulo 2^128 when IVLEN is 16, and else records InvalidIvLength and writes
no output. That the
latch is kept into IDLE is the model's choice (log 2). -/
def Obligations.IncrementAddsModulo : Prop :=
  decode 0x00000003#32 = .ok .increment ∧
  (∀ s : State, s.latch.ivlen.toNat = 16 → exec .increment s = .next { s with
    ivOut := BitVec.ofNat 128 ((s.latch.iv.toNat + s.latch.blk.toNat) % 2 ^ 128)
    mask := 0#4, cause := 0#4, done := true, fsm := .idle }) ∧
  (∀ s : State, s.latch.ivlen.toNat ≠ 16 → exec .increment s = .next { s with
    mask := 0b0010#4, cause := 2#4, done := true, fsm := .idle })

/-- R95: DIVIDE writes the quotient and the residual of a non-negative offset (minus zero is zero), and else records
NegativeOffset and writes no output. That the
latch is kept into IDLE is the model's choice (log 2). -/
def Obligations.DivideSplitsTheOffset : Prop :=
  decode 0x00000002#32 = .ok .divide ∧
  (∀ s : State, (s.latch.neg = false ∨ s.latch.off.toNat = 0) → exec .divide s = .next { s with
    quot := BitVec.ofNat 160 (s.latch.off.toNat / 16)
    resid := BitVec.ofNat 4 (s.latch.off.toNat % 16)
    mask := 0#4, cause := 0#4, done := true, fsm := .idle }) ∧
  (∀ s : State, s.latch.neg = true → s.latch.off.toNat ≠ 0 → exec .divide s = .next { s with
    mask := 0b0100#4, cause := 3#4, done := true, fsm := .idle })

/-- R98: POSITION chains validation, division and increment; on any violation it records all of them and writes no output. That the
latch is kept into IDLE is the model's choice (log 2). -/
def Obligations.PositionDerivesTheCounter : Prop :=
  decode 0x00000004#32 = .ok .position ∧
  (∀ s : State, s.latch.keylen.toNat = 32 → s.latch.ivlen.toNat = 16 → (s.latch.neg = false ∨ s.latch.off.toNat = 0) →
    exec .position s = .next { s with
      quot := BitVec.ofNat 160 (s.latch.off.toNat / 16)
      resid := BitVec.ofNat 4 (s.latch.off.toNat % 16)
      ivOut := BitVec.ofNat 128 ((s.latch.iv.toNat + s.latch.off.toNat / 16) % 2 ^ 128)
      mask := 0#4, cause := 0#4, done := true, fsm := .idle }) ∧
  (∀ s : State,
    (s.latch.keylen.toNat ≠ 32 ∨ s.latch.ivlen.toNat ≠ 16 ∨ (s.latch.neg = true ∧ s.latch.off.toNat ≠ 0)) →
    exec .position s = .next { s with
      mask := BitVec.ofNat 4 ((if s.latch.keylen.toNat ≠ 32 then 1 else 0) +
        (if s.latch.ivlen.toNat ≠ 16 then 2 else 0) +
        (if s.latch.neg = true ∧ s.latch.off.toNat ≠ 0 then 4 else 0))
      cause := if s.latch.keylen.toNat ≠ 32 then 1#4 else if s.latch.ivlen.toNat ≠ 16 then 2#4 else 3#4
      done := true
      fsm := .idle })

/-- R89: COPYBACK puts the IV_OUT of acceptance into IV_IN and clears ERR; a host write to IV_IN while it is in flight is
overwritten. That the
latch is kept into IDLE is the model's choice (log 2). -/
def Obligations.CopybackMovesTheLatchedResult : Prop :=
  decode 0x00000005#32 = .ok .copyback ∧
  (∀ s : State, exec .copyback s = .next { s with
    ivIn := s.latch.ivout, mask := 0#4, cause := 0#4, done := true, fsm := .idle }) ∧
  (∀ (s : State) (j : Fin 4) (v : Word), exec .copyback (writeReg (.ivIn j) v s) = exec .copyback s) ∧
  (∀ (s : State) (w : Word), (loadLatch w s).latch.ivout = s.ivOut)

/-! ### The arithmetic -/

/-- R12: `BE` is the big-endian sum, and `bytesBE_n` is the n-byte string whose value is `v mod 2^(8n)`. -/
def Obligations.ByteStringsAreBigEndian : Prop :=
  (∀ bs : List Byte, beValue bs = ∑ k : Fin bs.length, (bs.get k).toNat * 2 ^ (8 * (bs.length - 1 - k.val))) ∧
  (∀ n v : Nat, (bytesBE n v).length = n ∧ beValue (bytesBE n v) = v % 2 ^ (8 * n)) ∧
  (∀ bs cs : List Byte, bs.length = cs.length → beValue bs = beValue cs → bs = cs)

/-- R82: the increment of a 16-byte IV is the 128-bit increment of its value, and the four words hold its bytes in order. -/
def Obligations.IncrementOfBytesIsRegisterIncrement : Prop :=
  (∀ (v : Counter) (b : Nat), (inc128 v b).toNat = (v.toNat + b) % 2 ^ 128) ∧
  ∀ (iv : List Byte) (b : Nat), iv.length = 16 →
    incrementIv iv b = bytesBE 16 ((beValue iv + b) % 2 ^ 128) ∧
    incrementIv iv b = bytesBE 16 (inc128 (BitVec.ofNat 128 (beValue iv)) b).toNat ∧
    incrementIv iv b = counterBytes (inc128 (BitVec.ofNat 128 (beValue iv)) b)

/-- R86: identity, additive composability, period, injectivity and range of the increment. -/
def Obligations.IncrementObeysItsLaws : Prop :=
  (∀ v : Counter, inc128 v 0 = v) ∧
  (∀ (v : Counter) (b1 b2 : Nat), inc128 (inc128 v b1) b2 = inc128 v (b1 + b2)) ∧
  (∀ (v : Counter) (b : Nat), inc128 v (b + 2 ^ 128) = inc128 v b) ∧
  (∀ (v1 v2 : Counter) (b : Nat), inc128 v1 b = inc128 v2 b → v1 = v2) ∧
  (∀ (v : Counter) (b : Nat), (inc128 v b).toNat < 2 ^ 128)

/-- R85: reducing the block count modulo 2^128 first changes nothing, so the 128-bit BLK loses nothing. -/
def Obligations.BlockCountReductionIsExact : Prop :=
  ∀ (v : Counter) (b : Nat), inc128 v b = inc128 v (b % 2 ^ 128) ∧ inc128 v (presentBlocks b).toNat = inc128 v b

/-- R87: the byte-serial carry chain from the least significant byte computes the increment of R82 bit for bit. -/
def Obligations.ByteSerialChainRefinesIncrement : Prop :=
  ∀ (iv : List Byte) (b : Nat), iv.length = 16 → byteSerialIncrement iv b = incrementIv iv b

/-- R92, R91: quotient and residual put the offset together again, and they are the only pair that does; for every natural
offset, and for the shift and the mask of the 160-bit register. -/
def Obligations.DividerLosesNothing : Prop :=
  (∀ o : Nat, o = 16 * (divmod16 o).1 + (divmod16 o).2 ∧ (divmod16 o).2 < 16 ∧
    ∀ q res : Nat, res < 16 → o = 16 * q + res → (q, res) = divmod16 o) ∧
  ∀ off : Wide,
    off.toNat = 16 * (quotientOf off).toNat + (residualOf off).toNat ∧
    ∀ q res : Nat, res < 16 → off.toNat = 16 * q + res → q = (quotientOf off).toNat ∧ res = (residualOf off).toNat

/-- R93: every register width of at least 132 bits is exact for IV_OUT and RESID; through the 160-bit OFF, POSITION gives them
for every natural offset, and QUOT modulo 2^156. -/
def Obligations.OffsetWidthIsExact : Prop :=
  (∀ o : Nat, o / 16 % 2 ^ 128 = o % 2 ^ 132 / 16 ∧ o % 16 = o % 2 ^ 132 % 16) ∧
  (∀ (o width : Nat) (iv : Counter), 132 ≤ width →
    inc128 iv (o % 2 ^ width / 16) = inc128 iv (o / 16) ∧ o % 2 ^ width % 16 = o % 16) ∧
  ∀ (s : State) (o : Nat), s.latch.keylen = 32#32 → s.latch.ivlen = 16#32 → s.latch.neg = false →
    s.latch.off = BitVec.ofNat 160 o →
    ∃ t, exec .position s = .next t ∧ t.cause = 0#4 ∧ t.ivOut.toNat = (s.latch.iv.toNat + o / 16) % 2 ^ 128 ∧
      t.resid.toNat = o % 16 ∧ t.quot.toNat = o / 16 % 2 ^ 156

/-- R37, R78: the signed offset the registers present; the offset check fails exactly when it is negative. -/
def Obligations.OffsetCheckIsTheSign : Prop :=
  ∀ (neg : Bool) (off : Wide),
    offsetValue neg off = (if neg = true ∧ off.toNat ≠ 0 then -(off.toNat : Int) else off.toNat) ∧
    (offsetNegative neg off = true ↔ offsetValue neg off < 0) ∧ offsetValue true 0#160 = 0

/-- R142: what a host writes for an offset; NegativeOffset is reported for every negative offset whose magnitude is no multiple
of 2^160, and for every negative one under the rule's replacement of magnitudes of 2^160 and more by 1. -/
def Obligations.HostPresentationOfOffsets : Prop :=
  (∀ o : Int, 0 ≤ o → presentOffset o = (false, BitVec.ofNat 160 o.toNat)) ∧
  (∀ o : Int, o < 0 → presentOffset o = (true, BitVec.ofNat 160 (-o).toNat)) ∧
  (∀ o : Int, offsetNegative (presentOffset o).1 (presentOffset o).2 = true ↔ o < 0 ∧ o.natAbs % 2 ^ 160 ≠ 0) ∧
  (∀ o : Int, offsetNegative (presentOffsetKeepingError o).1 (presentOffsetKeepingError o).2 = true ↔ o < 0) ∧
  (∀ o : Int, o.natAbs < 2 ^ 160 → offsetValue (presentOffset o).1 (presentOffset o).2 = o)

/-- POSITION at an offset gives the IV_OUT of INCREMENT by the offset's whole blocks modulo 2^128 (95_test_vectors.md 2.5). -/
def Obligations.PositionAgreesWithIncrement : Prop :=
  ∀ s t : State, s.latch.keylen = 32#32 → s.latch.ivlen = 16#32 → (s.latch.neg = false ∨ s.latch.off = 0#160) →
    t.latch.ivlen = 16#32 → t.latch.iv = s.latch.iv → t.latch.blk = presentBlocks (s.latch.off.toNat / 16) →
    ∃ a b, exec .position s = .next a ∧ exec .increment t = .next b ∧ a.cause = 0#4 ∧ b.cause = 0#4 ∧ a.ivOut = b.ivOut

/-- INCREMENT, COPYBACK, INCREMENT add both block counts to the base IV (R86, R89). -/
def Obligations.ChainedIncrementsAddUp : Prop :=
  ∀ (s : State) (b2 : Counter), s.ivlen = 16#32 →
    ∃ t1 t2 t3, exec .increment (loadLatch 3#32 s) = .next t1 ∧ exec .copyback (loadLatch 5#32 t1) = .next t2 ∧
      exec .increment (loadLatch 3#32 { t2 with blk := b2 }) = .next t3 ∧
      t2.ivIn = t1.ivOut ∧ t3.cause = 0#4 ∧ t3.ivOut.toNat = (s.ivIn.toNat + s.blk.toNat + b2.toNat) % 2 ^ 128

/-! ### Acceptance, overrun, completion -/

/-- R105: a CMD write while IDLE loads every field of the latch, clears DONE, sets BUSY, and changes no other state of the
block. The draw of the latency and its counter are the model's (log 1, log 16). -/
def Obligations.IdleCmdWriteIsAccepted : Prop :=
  ∀ (s : State) (w : Word), s.fsm = .idle →
    ∃ d n, busWrite 0x08#8 4 w s = { s with
      latch := { cmd := w, keylen := s.keylen, ivlen := s.ivlen, neg := s.neg, iv := s.ivIn, blk := s.blk,
                 off := s.off, ivout := s.ivOut }
      done := false
      fsm := .busy
      reply := some (.write .ok)
      due := d
      issued := n }

/-- R107: a CMD write while BUSY sets OVR and is dropped, and the command in flight completes as without it. -/
def Obligations.BusyCmdWriteIsDropped : Prop :=
  ∀ (s : State) (w : Word), s.fsm = .busy →
    busWrite 0x08#8 4 w s = { s with ovr := true, reply := some (.write .ok) } ∧
    ∀ i : Instr, ∃ t, exec i s = .next t ∧
      exec i (busWrite 0x08#8 4 w s) = .next { t with ovr := true, reply := some (.write .ok) }

/-- R40: a completion reads only the latch: with equal latches, ERR is the same, and every output is either written with the
same value in both or kept in both. -/
def Obligations.CompletionReadsOnlyTheLatch : Prop :=
  ∀ (i : Instr) (s1 s2 : State), s1.latch = s2.latch →
    ∃ t1 t2, exec i s1 = .next t1 ∧ exec i s2 = .next t2 ∧ t1.cause = t2.cause ∧ t1.mask = t2.mask ∧
      (t1.ivIn = t2.ivIn ∨ (t1.ivIn = s1.ivIn ∧ t2.ivIn = s2.ivIn)) ∧
      (t1.ivOut = t2.ivOut ∨ (t1.ivOut = s1.ivOut ∧ t2.ivOut = s2.ivOut)) ∧
      ((t1.quot = t2.quot ∧ t1.resid = t2.resid) ∨
        (t1.quot = s1.quot ∧ t1.resid = s1.resid ∧ t2.quot = s2.quot ∧ t2.resid = s2.resid))

/-- R41, R18: no command but COPYBACK reads a result of an earlier one: from equal operand registers, whatever the results and
errors left before, the error and the outputs written are the same. -/
def Obligations.CommandsCarryNoResultOver : Prop :=
  ∀ (i : Instr) (w : Word) (s1 s2 : State), i ≠ .copyback → s1.keylen = s2.keylen → s1.ivlen = s2.ivlen →
    s1.neg = s2.neg → s1.ivIn = s2.ivIn → s1.blk = s2.blk → s1.off = s2.off →
    ∃ t1 t2, exec i (loadLatch w s1) = .next t1 ∧ exec i (loadLatch w s2) = .next t2 ∧
      t1.cause = t2.cause ∧ t1.mask = t2.mask ∧ t1.ivIn = t2.ivIn ∧
      (t1.cause = 0#4 → i = .increment ∨ i = .position → t1.ivOut = t2.ivOut) ∧
      (t1.cause = 0#4 → i = .divide ∨ i = .position → t1.quot = t2.quot ∧ t1.resid = t2.resid)

/-- R115: a command that fails (the illegal word too) writes no output, sets DONE and leaves FSM IDLE. -/
def Obligations.FailedCommandWritesNoOutput : Prop :=
  (∀ (i : Instr) (s : State), ∃ t, exec i s = .next t ∧ t.done = true ∧ t.fsm = .idle ∧
    (t.cause ≠ 0#4 → t.ivIn = s.ivIn ∧ t.ivOut = s.ivOut ∧ t.quot = s.quot ∧ t.resid = s.resid)) ∧
  ∀ s : State, ∃ t, execIllegal s = .next t ∧ t.done = true ∧ t.fsm = .idle ∧ t.cause ≠ 0#4 ∧
    t.ivIn = s.ivIn ∧ t.ivOut = s.ivOut ∧ t.quot = s.quot ∧ t.resid = s.resid

/-- R69, R38: the frame of every completion: what no command writes, and the outputs that each leaves alone. That the latch keeps
its contents is the model's choice (log 2; I10 leaves it any value while IDLE). -/
def Obligations.CompletionFrame : Prop :=
  ∀ (i : Instr) (s : State), ∃ t, exec i s = .next t ∧
    t.ie = s.ie ∧ t.ovr = s.ovr ∧ t.keylen = s.keylen ∧ t.ivlen = s.ivlen ∧ t.neg = s.neg ∧ t.blk = s.blk ∧
    t.off = s.off ∧ t.latch = s.latch ∧ t.rst = s.rst ∧ t.reply = s.reply ∧ t.inputs = s.inputs ∧ t.pins = s.pins ∧ t.vars = s.vars ∧
    t.hostFault = s.hostFault ∧ t.due = s.due ∧ t.issued = s.issued ∧ t.resets = s.resets ∧
    (i ≠ .copyback → t.ivIn = s.ivIn) ∧
    (i ≠ .increment → i ≠ .position → t.ivOut = s.ivOut) ∧
    (i ≠ .divide → i ≠ .position → t.quot = s.quot ∧ t.resid = s.resid)

/-- R113: the values of MASK each command can leave, all of them and no others; CAUSE is `causeOf` of it. -/
def Obligations.MaskValuesOfEachCommand : Prop :=
  (∀ m : BitVec 4, (∃ s t, exec .validate s = .next t ∧ t.mask = m) ↔ m.toNat ≤ 7) ∧
  (∀ m : BitVec 4, (∃ s t, exec .position s = .next t ∧ t.mask = m) ↔ m.toNat ≤ 7) ∧
  (∀ m : BitVec 4, (∃ s t, exec .increment s = .next t ∧ t.mask = m) ↔ m = 0b0000#4 ∨ m = 0b0010#4) ∧
  (∀ m : BitVec 4, (∃ s t, exec .divide s = .next t ∧ t.mask = m) ↔ m = 0b0000#4 ∨ m = 0b0100#4) ∧
  (∀ m : BitVec 4, (∃ s t, exec .nop s = .next t ∧ t.mask = m) ↔ m = 0b0000#4) ∧
  (∀ m : BitVec 4, (∃ s t, exec .copyback s = .next t ∧ t.mask = m) ↔ m = 0b0000#4) ∧
  (∀ m : BitVec 4, (∃ s t, execIllegal s = .next t ∧ t.mask = m) ↔ m = 0b1000#4) ∧
  (∀ (i : Instr) (s t : State), exec i s = .next t → t.cause = causeOf t.mask) ∧
  (∀ s t : State, execIllegal s = .next t → t.cause = causeOf t.mask)

/-- R117: issuing a failed command again with the same inputs gives the same error. -/
def Obligations.ReissueGivesTheSameError : Prop :=
  ∀ (i : Instr) (w : Word) (s t : State), exec i (loadLatch w s) = .next t → t.cause ≠ 0#4 →
    ∃ u, exec i (loadLatch w t) = .next u ∧ u.cause = t.cause ∧ u.mask = t.mask

/-! ### The register window -/

/-- R56, R118: an access of another size or alignment gets ERROR and rdata 0 and changes no state of the block, not one STATUS
or ERR bit; the host-program fault it records is never cleared. -/
def Obligations.BadAccessIsAHostFault : Prop :=
  (∀ (s : State) (a : WindowOffset) (n : Nat) (v : Word), (n ≠ 4 ∨ a.toNat % 4 ≠ 0) →
    busRead a n s = { s with reply := some (.read .error 0#32), hostFault := true } ∧
    busWrite a n v s = { s with reply := some (.write .error), hostFault := true }) ∧
  (∀ s t : State, step s = .next t → s.hostFault = true → t.hostFault = true)

/-- The model's reading of the fault (93_implementation_defined.md I12: record and stop; log 3, log 17): after an ERROR response
the host program's next access is a fault, and a command in flight still completes; the fault is one instance's (log 21). -/
def Obligations.FaultedHostProgramStops : Prop :=
  ∀ (s : State) (op : BusOp) (rest : List BusOp), s.rst = false → s.hostFault = true → turn s = .host op rest →
    (s.fsm = .idle → step s = .fault .hostProgram) ∧
    (s.fsm = .busy → step s = .next { s with due := s.due - 1, pins := tickPins s.pins })

/-- R50, R58: a 4-byte aligned read answers the register's value, or 0 at a reserved offset, and changes no state but the
answer at the port. -/
def Obligations.ReadsAnswerAndChangeNothing : Prop :=
  ∀ (s : State) (a : WindowOffset) (n : Nat),
    ((n ≠ 4 ∨ a.toNat % 4 ≠ 0) →
      busRead a n s = { s with reply := some (.read .error 0#32), hostFault := true }) ∧
    (∀ r : Reg, a = regOffset r → n = 4 → busRead a n s = { s with reply := some (.read .ok (readReg r s)) }) ∧
    (n = 4 → a.toNat % 4 = 0 → (∀ r : Reg, a ≠ regOffset r) →
      busRead a n s = { s with reply := some (.read .ok 0#32) })

/-- What a read of each offset gives (10_state.md R21, R22 to R36), as numbers. -/
def Obligations.RegisterMapReads : Prop :=
  ∀ s : State,
    readAnswer 0x00#8 4 s = (.ok, 0x49564331#32) ∧
    readAnswer 0x04#8 4 s = (.ok, if s.ie then 2#32 else 0#32) ∧
    readAnswer 0x08#8 4 s = (.ok, 0#32) ∧
    readAnswer 0x0C#8 4 s = (.ok, BitVec.ofNat 32 ((if s.fsm = .busy then 1 else 0) + (if s.done then 2 else 0) +
      (if s.cause.toNat ≠ 0 then 4 else 0) + (if s.ovr then 8 else 0))) ∧
    readAnswer 0x10#8 4 s = (.ok, BitVec.ofNat 32 (s.cause.toNat + 256 * s.mask.toNat)) ∧
    readAnswer 0x14#8 4 s = (.ok, s.keylen) ∧ readAnswer 0x18#8 4 s = (.ok, s.ivlen) ∧
    readAnswer 0x1C#8 4 s = (.ok, if s.neg then 1#32 else 0#32) ∧
    (∀ j < 4, readAnswer (BitVec.ofNat 8 (0x20 + 4 * j)) 4 s =
      (.ok, BitVec.ofNat 32 (s.ivIn.toNat / 2 ^ (32 * (3 - j))))) ∧
    (∀ j < 4, readAnswer (BitVec.ofNat 8 (0x30 + 4 * j)) 4 s =
      (.ok, BitVec.ofNat 32 (s.blk.toNat / 2 ^ (32 * (3 - j))))) ∧
    (∀ j < 5, readAnswer (BitVec.ofNat 8 (0x40 + 4 * j)) 4 s =
      (.ok, BitVec.ofNat 32 (s.off.toNat / 2 ^ (32 * (4 - j))))) ∧
    (∀ j < 4, readAnswer (BitVec.ofNat 8 (0x60 + 4 * j)) 4 s =
      (.ok, BitVec.ofNat 32 (s.ivOut.toNat / 2 ^ (32 * (3 - j))))) ∧
    (∀ j < 5, readAnswer (BitVec.ofNat 8 (0x70 + 4 * j)) 4 s =
      (.ok, BitVec.ofNat 32 (s.quot.toNat / 2 ^ (32 * (4 - j))))) ∧
    readAnswer 0x84#8 4 s = (.ok, BitVec.ofNat 32 s.resid.toNat)

/-- R55: a reserved offset reads 0 and ignores writes, both with response OK. -/
def Obligations.ReservedOffsetsReadZero : Prop :=
  ∀ (s : State) (a : WindowOffset) (v : Word),
    (a = 0x54#8 ∨ a = 0x58#8 ∨ a = 0x5C#8 ∨ (0x88 ≤ a.toNat ∧ a.toNat % 4 = 0)) →
    busRead a 4 s = { s with reply := some (.read .ok 0#32) } ∧
    busWrite a 4 v s = { s with reply := some (.write .ok) }

/-- R53: writes to the read-only registers are ignored with response OK, STATUS bits 0 and 2 cannot be written, and CMD and
CTRL.SRST read 0. -/
def Obligations.ReadOnlyRegistersIgnoreWrites : Prop :=
  (∀ (s : State) (r : Reg) (v : Word),
    (r = .id ∨ r = .err ∨ (∃ j, r = .ivOut j) ∨ (∃ j, r = .quot j) ∨ r = .resid) →
    busWrite (regOffset r) 4 v s = { s with reply := some (.write .ok) }) ∧
  (∀ (s : State) (v : Word), let t := busWrite 0x0C#8 4 v s
    t.reply = some (.write .ok) ∧ t.fsm = s.fsm ∧ t.cause = s.cause ∧
    (readReg .status t).getLsbD 0 = (readReg .status s).getLsbD 0 ∧
    (readReg .status t).getLsbD 2 = (readReg .status s).getLsbD 2) ∧
  (∀ s : State, readAnswer 0x08#8 4 s = (.ok, 0#32) ∧ (readReg .ctrl s).getLsbD 0 = false)

/-- R52: a write to an operand register, while IDLE or BUSY, reads back with reserved bits 0, changes no other register, does
not reach the latch, and the registers read 0 after reset. -/
def Obligations.OperandRegistersReadBack : Prop :=
  ∀ (s : State) (r : Reg) (v : Word),
    (r = .keylen ∨ r = .ivlen ∨ r = .offsign ∨ (∃ j, r = .ivIn j) ∨ (∃ j, r = .blk j) ∨ (∃ j, r = .off j)) →
    let t := busWrite (regOffset r) 4 v s
    readAnswer (regOffset r) 4 t = (.ok, if r = .offsign then BitVec.ofNat 32 (v.toNat % 2) else v) ∧
    (∀ q : Reg, q ≠ r → readAnswer (regOffset q) 4 t = readAnswer (regOffset q) 4 s) ∧
    t.latch = s.latch ∧ t.fsm = s.fsm ∧ t.due = s.due ∧ t.reply = some (.write .ok) ∧ t.hostFault = s.hostFault ∧
    readAnswer (regOffset r) 4 State.reset = (.ok, 0#32)

/-- R54: a write to STATUS clears DONE and OVR where its bits 1 and 3 are 1, and does nothing else. -/
def Obligations.StatusIsWriteOneToClear : Prop :=
  ∀ (s : State) (v : Word), busWrite 0x0C#8 4 v s = { s with
    done := if v.getLsbD 1 then false else s.done
    ovr := if v.getLsbD 3 then false else s.ovr
    reply := some (.write .ok) }

/-- R24, R130: a write to CTRL with bit 0 = 0 sets IE to bit 1 and nothing else; with bit 0 = 1 it leaves the reset state,
whatever bit 1 is, and the host's side alone. -/
def Obligations.CtrlWriteSetsIeOrResets : Prop :=
  (∀ (s : State) (v : Word), v.getLsbD 0 = false →
    busWrite 0x04#8 4 v s = { s with ie := v.getLsbD 1, reply := some (.write .ok) }) ∧
  (∀ (s : State) (v : Word), v.getLsbD 0 = true → ∃ l n, busWrite 0x04#8 4 v s = { State.reset with
    latch := l, rst := s.rst, reply := some (.write .ok), inputs := s.inputs, pins := s.pins, vars := s.vars, hostFault := s.hostFault,
    issued := s.issued, resets := n }) ∧
  (∀ s : State, readAnswer 0x04#8 4 s = (.ok, if s.ie then 2#32 else 0#32))

/-- R20: the words of a wide value lie most significant first, at rising offsets; writing all of them sets the value, reading
them gives it, and the 16 bytes of an IV are those of its four words in order. -/
def Obligations.WideValuesAreMostSignificantFirst : Prop :=
  (∀ v : Counter, v = word4 v 0 ++ word4 v 1 ++ word4 v 2 ++ word4 v 3) ∧
  (∀ v : Wide, v = word5 v 0 ++ word5 v 1 ++ word5 v 2 ++ word5 v 3 ++ word5 v 4) ∧
  (∀ (v : Counter) (j : Fin 4), (word4 v j).toNat = v.toNat / 2 ^ (32 * (3 - j.val)) % 2 ^ 32) ∧
  (∀ (v : Wide) (j : Fin 5), (word5 v j).toNat = v.toNat / 2 ^ (32 * (4 - j.val)) % 2 ^ 32) ∧
  (∀ v : Counter, counterBytes v = bytesBE 16 v.toNat) ∧
  (∀ (s : State) (w0 w1 w2 w3 : Word),
    (busWrite 0x2C#8 4 w3 (busWrite 0x28#8 4 w2 (busWrite 0x24#8 4 w1 (busWrite 0x20#8 4 w0 s)))).ivIn =
      w0 ++ w1 ++ w2 ++ w3 ∧
    (busWrite 0x3C#8 4 w3 (busWrite 0x38#8 4 w2 (busWrite 0x34#8 4 w1 (busWrite 0x30#8 4 w0 s)))).blk =
      w0 ++ w1 ++ w2 ++ w3) ∧
  (∀ (s : State) (w0 w1 w2 w3 w4 : Word),
    (busWrite 0x50#8 4 w4 (busWrite 0x4C#8 4 w3 (busWrite 0x48#8 4 w2 (busWrite 0x44#8 4 w1
      (busWrite 0x40#8 4 w0 s))))).off = w0 ++ w1 ++ w2 ++ w3 ++ w4) ∧
  (∀ (s : State) (j : Fin 4), readAnswer (BitVec.ofNat 8 (0x60 + 4 * j.val)) 4 s = (.ok, word4 s.ivOut j)) ∧
  (∀ (s : State) (j : Fin 5), readAnswer (BitVec.ofNat 8 (0x70 + 4 * j.val)) 4 s = (.ok, word5 s.quot j))

/-! ### Reset -/

/-- R44: the state after a reset by the pin's step (R129), by CTRL.SRST, and in State.reset; ID still reads its constant and irq
is 0. The host's side is not the block's, and stays. -/
def Obligations.ResetLeavesTheResetState : Prop :=
  (∀ (s : State) (rest : List PinChange), turn s = .pin true rest →
    ∃ t, step s = .next t ∧ AtReset t ∧ t.rst = true ∧ irq t = false ∧ readReg .id t = 0x49564331#32 ∧
      t.pins = rest ∧ t.inputs = s.inputs ∧ SameHost s t) ∧
  (∀ (s : State) (v : Word), v.getLsbD 0 = true → let t := busWrite 0x04#8 4 v s
    AtReset t ∧ irq t = false ∧ readReg .id t = 0x49564331#32 ∧ SameHost s t) ∧
  AtReset State.reset ∧ irq State.reset = false ∧ readReg .id State.reset = 0x49564331#32

/-- R131: a reset by the pin's step or by the host's write to CTRL.SRST abandons the command in flight: with no more
accesses to come, no completion follows, after any number of steps, whatever the pin does. -/
def Obligations.ResetAbandonsTheCommand : Prop :=
  (∀ (s : State) (rest : List PinChange) (k : Nat), s.fsm = .busy → turn s = .pin true rest → s.inputs = [] →
    ∃ t, Host.Core.run core (k + 1) s = .next t ∧ AtReset t ∧ irq t = false) ∧
  (∀ (s : State) (v : Word) (k : Nat), s.rst = false → s.hostFault = false → s.fsm = .busy → v.getLsbD 0 = true →
    turn s = .host (.write 0x04#8 4 v) [] →
    ∃ t, Host.Core.run core (k + 1) s = .next t ∧ AtReset t ∧ irq t = false)

/-- R134: a host access while `rst` is high is refused. -/
def Obligations.AccessUnderResetIsRefused : Prop :=
  ∀ (s : State) (op : BusOp) (rest : List BusOp), s.rst = true → turn s = .host op rest →
    step s = .refused .accessUnderReset

/-- R17, R129: the pin may move between any two steps of the others: a change that is due moves at once, whatever the host or the
block would do, and one to come after n + 1 steps comes one step nearer with each, an unmet POLL's read as any other. The count of
steps is the model's rendering of the free moment (log 22). -/
def Obligations.PinMovesBetweenAnyTwoSteps : Prop :=
  (∀ (s : State) (level : Bool) (rest : List PinChange), s.pins = ⟨0, level⟩ :: rest →
    ∃ t, step s = .next t ∧ t.rst = level ∧ t.pins = rest ∧ t.inputs = s.inputs ∧ (level = true → AtReset t) ∧
      (level = false → s.rst = false → t = { s with due := s.due - 1, pins := rest })) ∧
  (∀ (s t : State) (n : Nat) (level : Bool) (rest : List PinChange), s.pins = ⟨n + 1, level⟩ :: rest → step s = .next t →
    t.pins = ⟨n, level⟩ :: rest) ∧
  (∀ (s : State) (a : WindowOffset) (mask val : Word) (rest : List BusOp) (n : Nat) (level : Bool) (later : List PinChange),
    s.rst = false → s.hostFault = false → turn s = .host (.poll a mask val) rest → s.pins = ⟨n + 1, level⟩ :: later →
    a.toNat % 4 = 0 → (readAnswer a 4 s).2 &&& mask ≠ val →
    ∃ t, step s = .next t ∧ t.inputs = s.inputs ∧ t.pins = ⟨n, level⟩ :: later ∧ (n = 0 → turn t = .pin level later))

/-! ### Interrupt and flags -/

/-- R120, R121: irq is IE and DONE; every completion raises it if enabled; a write to STATUS with bit 1, an acceptance, IE = 0
and a reset hold it low; setting IE while DONE raises it at once. -/
def Obligations.InterruptFollowsEnableAndDone : Prop :=
  (∀ s : State, irq s = true ↔ s.ie = true ∧ s.done = true) ∧
  (∀ (i : Instr) (s : State), ∃ t, exec i s = .next t ∧ t.done = true ∧ irq t = s.ie) ∧
  (∀ s : State, ∃ t, execIllegal s = .next t ∧ t.done = true ∧ irq t = s.ie) ∧
  (∀ (s : State) (v : Word), v.getLsbD 1 = true → irq (busWrite 0x0C#8 4 v s) = false) ∧
  (∀ (s : State) (w : Word), s.fsm = .idle → (busWrite 0x08#8 4 w s).done = false ∧ irq (busWrite 0x08#8 4 w s) = false) ∧
  (∀ s : State, irq (busWrite 0x04#8 4 0#32 s) = false ∧ (busWrite 0x04#8 4 0#32 s).done = s.done) ∧
  (∀ s : State, irq (busWrite 0x04#8 4 2#32 s) = s.done) ∧
  (∀ s : State, (applyReset s).ie = false ∧ (applyReset s).done = false)

/-- R26, R19: over every step, OVR is set only by a CMD write while BUSY and cleared only by STATUS bit 3 or a reset; DONE is set
only by a completion and cleared only by an acceptance, STATUS bit 1 or a reset; BUSY is set only by an acceptance and cleared only
by the completion or a reset. -/
def Obligations.StatusFlagsChangeOnlyAsStated : Prop :=
  ∀ s t : State, step s = .next t →
    (s.ovr = false → t.ovr = true → s.fsm = .busy ∧ ∃ v, writesNow .cmd v s) ∧
    (s.ovr = true → t.ovr = false → resetsNow s ∨ ∃ v, writesNow .status v s ∧ v.getLsbD 3 = true) ∧
    (s.done = false → t.done = true → completesNow s = true) ∧
    (s.done = true → t.done = false → resetsNow s ∨ (s.fsm = .idle ∧ ∃ v, writesNow .cmd v s) ∨
      ∃ v, writesNow .status v s ∧ v.getLsbD 1 = true) ∧
    (s.fsm = .idle → t.fsm = .busy → ∃ v, writesNow .cmd v s ∧ t.latch = latchOf v s ∧ t.done = false) ∧
    (s.fsm = .busy → t.fsm = .idle → completesNow s = true ∨ resetsNow s)

/-! ### The whole machine -/

/-- R38: over every step that is no reset, each register changes only by its writers: the operand registers by a host write,
IV_IN also by COPYBACK, IV_OUT, QUOT and RESID by a successful completion of their commands, ERR by a completion, IE by a
write to CTRL; the latch by an acceptance (that no completion changes it is the model's choice, log 2). -/
def Obligations.RegistersChangeOnlyByTheirWriters : Prop :=
  ∀ s t : State, step s = .next t → ¬ resetsNow s →
    (t.keylen ≠ s.keylen → ∃ v, writesNow .keylen v s) ∧
    (t.ivlen ≠ s.ivlen → ∃ v, writesNow .ivlen v s) ∧
    (t.neg ≠ s.neg → ∃ v, writesNow .offsign v s) ∧
    (t.blk ≠ s.blk → ∃ j v, writesNow (.blk j) v s) ∧
    (t.off ≠ s.off → ∃ j v, writesNow (.off j) v s) ∧
    (t.ivIn ≠ s.ivIn → (∃ j v, writesNow (.ivIn j) v s) ∨
      (completesNow s = true ∧ decode s.latch.cmd = .ok .copyback)) ∧
    (t.ivOut ≠ s.ivOut → completesNow s = true ∧ t.cause = 0#4 ∧
      (decode s.latch.cmd = .ok .increment ∨ decode s.latch.cmd = .ok .position)) ∧
    (t.quot ≠ s.quot ∨ t.resid ≠ s.resid → completesNow s = true ∧ t.cause = 0#4 ∧
      (decode s.latch.cmd = .ok .divide ∨ decode s.latch.cmd = .ok .position)) ∧
    (t.cause ≠ s.cause ∨ t.mask ≠ s.mask → completesNow s = true) ∧
    (t.ie ≠ s.ie → ∃ v, writesNow .ctrl v s) ∧
    (t.latch ≠ s.latch → s.fsm = .idle ∧ ∃ v, writesNow .cmd v s)

/-- R47 and the handshake (R105, R106), R129 under a held pin, and the canonical form of the host's variables (log 8): every
step keeps them, from every state that has them. -/
def Obligations.StepKeepsTheInvariant : Prop :=
  ∀ s t : State, Inv s → step s = .next t → Inv t

/-- The state after reset has the invariant (R44, R47). -/
def Obligations.ResetHasTheInvariant : Prop := Inv State.reset

/-- R110, R17: a command in flight that no reset abandons completes exactly once, after the steps its free latency leaves
(log 1): it stays in flight, its latch untouched, for `due` steps and one for each change of the pin that comes first, and
the step after them is its completion. -/
def Obligations.CommandInFlightCompletesOnce : Prop :=
  ∀ s : State, s.rst = false → s.fsm = .busy → resetWithin s.due s = false →
    ∃ n, s.due ≤ n ∧ n ≤ s.due + s.pins.length ∧
      (∀ k ≤ n, ∃ t, Host.Core.run core k s = .next t ∧ t.fsm = .busy ∧ t.latch = s.latch) ∧
      ∃ t u, Host.Core.run core n s = .next t ∧ step t = blockStep { t with pins := tickPins t.pins } ∧ step t = .next u ∧
        u.fsm = .idle ∧ u.done = true ∧ u.cause = causeOf u.mask

/-- R105, R106, R110: a command that the host writes to CMD while IDLE completes, with nothing more to come, whatever latency is
drawn for it (log 1): the end state is that of the command on the operands of acceptance, with only the port and the model's own
counters moved on. -/
def Obligations.IssuedCommandCompletes : Prop :=
  ∀ (i : Instr) (s : State), s.rst = false → s.hostFault = false → s.fsm = .idle → s.pins = [] →
    s.inputs = [.write 0x08#8 4 (encode i)] →
    ∃ n t, exec i (loadLatch (encode i) s) = .next t ∧
      Host.Core.run core n s = .next { t with
        reply := some (.write .ok), inputs := [], due := 0, issued := s.issued + 1 }

/-- R74, R73: WAIT ends: a poll of STATUS for BUSY = 0 reads until the command in flight has completed, then the host goes on; the
pin is left alone meanwhile. -/
def Obligations.WaitEndsAfterTheCompletion : Prop :=
  ∀ (s : State) (rest : List BusOp), s.rst = false → s.hostFault = false → s.fsm = .busy → s.pins = [] →
    s.inputs = expandLine .wait ++ rest →
    ∃ t, Host.Core.run core (s.due + 2) s = .next t ∧ t.inputs = rest ∧ t.fsm = .idle ∧ t.done = true ∧
      (∃ d, t.reply = some (.read .ok d) ∧ d &&& 1#32 = 0#32)

/-! ### Host programs and platforms -/

/-- R73, R74: the expansion and encoding of the pseudo-operations as bus transactions. -/
def Obligations.PseudoOperationsExpand : Prop :=
  encodeProgram [.cmd .position] = [⟨.w, 0x08#8, 4, some 0x00000004#32⟩] ∧
  (∀ i : Instr, encodeProgram [.cmd i] = [⟨.w, 0x08#8, 4, some ((opcOf i).setWidth 32)⟩]) ∧
  (∀ v : Counter, encodeProgram [.wr128 .ivIn v] =
    [⟨.w, 0x20#8, 4, some (v.extractLsb' 96 32)⟩, ⟨.w, 0x24#8, 4, some (v.extractLsb' 64 32)⟩,
     ⟨.w, 0x28#8, 4, some (v.extractLsb' 32 32)⟩, ⟨.w, 0x2C#8, 4, some (v.extractLsb' 0 32)⟩]) ∧
  (∀ v : Counter, encodeProgram [.wr128 .blk v] =
    [⟨.w, 0x30#8, 4, some (v.extractLsb' 96 32)⟩, ⟨.w, 0x34#8, 4, some (v.extractLsb' 64 32)⟩,
     ⟨.w, 0x38#8, 4, some (v.extractLsb' 32 32)⟩, ⟨.w, 0x3C#8, 4, some (v.extractLsb' 0 32)⟩]) ∧
  (∀ v : Wide, encodeProgram [.wr160Off v] =
    [⟨.w, 0x40#8, 4, some (v.extractLsb' 128 32)⟩, ⟨.w, 0x44#8, 4, some (v.extractLsb' 96 32)⟩,
     ⟨.w, 0x48#8, 4, some (v.extractLsb' 64 32)⟩, ⟨.w, 0x4C#8, 4, some (v.extractLsb' 32 32)⟩,
     ⟨.w, 0x50#8, 4, some (v.extractLsb' 0 32)⟩]) ∧
  (∀ x : Nat, encodeProgram [.rd128 .ivOut x] =
    [⟨.r, 0x60#8, 4, none⟩, ⟨.r, 0x64#8, 4, none⟩, ⟨.r, 0x68#8, 4, none⟩, ⟨.r, 0x6C#8, 4, none⟩]) ∧
  (∀ x : Nat, encodeProgram [.rd128 .ivIn x] =
    [⟨.r, 0x20#8, 4, none⟩, ⟨.r, 0x24#8, 4, none⟩, ⟨.r, 0x28#8, 4, none⟩, ⟨.r, 0x2C#8, 4, none⟩]) ∧
  (∀ x : Nat, encodeProgram [.rd128 .blk x] =
    [⟨.r, 0x30#8, 4, none⟩, ⟨.r, 0x34#8, 4, none⟩, ⟨.r, 0x38#8, 4, none⟩, ⟨.r, 0x3C#8, 4, none⟩]) ∧
  (∀ x : Nat, encodeProgram [.rd160 .off x] =
    [⟨.r, 0x40#8, 4, none⟩, ⟨.r, 0x44#8, 4, none⟩, ⟨.r, 0x48#8, 4, none⟩, ⟨.r, 0x4C#8, 4, none⟩,
     ⟨.r, 0x50#8, 4, none⟩]) ∧
  (∀ x : Nat, encodeProgram [.rd160 .quot x] =
    [⟨.r, 0x70#8, 4, none⟩, ⟨.r, 0x74#8, 4, none⟩, ⟨.r, 0x78#8, 4, none⟩, ⟨.r, 0x7C#8, 4, none⟩,
     ⟨.r, 0x80#8, 4, none⟩]) ∧
  expandLine .wait = [.poll 0x0C#8 1#32 0#32] ∧
  encodeProgram [.clrDone, .clrOvr, .srst, .setup] =
    [⟨.w, 0x0C#8, 4, some 2#32⟩, ⟨.w, 0x0C#8, 4, some 8#32⟩, ⟨.w, 0x04#8, 4, some 1#32⟩,
     ⟨.w, 0x14#8, 4, some 32#32⟩, ⟨.w, 0x18#8, 4, some 16#32⟩]

/-- R73: the four reads of RD128 put together give the 128-bit value of IV_OUT, IV_IN or BLK, and the five of RD160 the 160-bit
value of QUOT or OFF, in whatever variables the host names; its other variables keep their values. -/
def Obligations.WideReadsAssembleTheValue : Prop :=
  (∀ (s : State) (r : Reg128) (x : Nat),
    let t := (expandLine (.rd128 r x)).foldl (fun u op => performOp op [] u) s
    wideVar128 x t.vars = some (match r with
      | .ivOut => s.ivOut
      | .ivIn => s.ivIn
      | .blk => s.blk) ∧
    (∀ y, y < x ∨ x + 4 ≤ y → lookupVar y t.vars = lookupVar y s.vars)) ∧
  (∀ (s : State) (r : Reg160) (x : Nat),
    let t := (expandLine (.rd160 r x)).foldl (fun u op => performOp op [] u) s
    wideVar160 x t.vars = some (match r with
      | .quot => s.quot
      | .off => s.off) ∧
    (∀ y, y < x ∨ x + 5 ≤ y → lookupVar y t.vars = lookupVar y s.vars))

/-- R126, R18: a step of one instance of a platform leaves every other instance as it was. For a step of the reset pin that is the
model's choice (log 24: each instance's pin moves on its own after the joint start, where R126 speaks of the start only), and for
a host-program fault recorded in the step too (log 21: the fault is kept per instance). -/
def Obligations.InstancesShareNoState : Prop :=
  ∀ (p q : List Placed) (k : Nat), stepInstance k p = .next q →
    q.length = p.length ∧ (∀ j, j ≠ k → q[j]? = p[j]?) ∧ q.map Placed.base = p.map Placed.base

/-- R48, R126, R59: on a platform whose windows are aligned and apart, a read or write at a bus address in one window reaches that
instance's port at its window offset, and no other instance. -/
def Obligations.BusAddressReachesOneInstance : Prop :=
  ∀ (p : List Placed) (k : Nat) (i : Placed) (addr n : Nat), platformWf p = true → p[k]? = some i →
    i.base ≤ addr → addr < i.base + 256 →
    (∀ v : Word, (∀ j, j ≠ k → (routeWrite addr n v p)[j]? = p[j]?) ∧
      (routeWrite addr n v p)[k]? = some { i with core := { i.core with
        inputs := i.core.inputs ++ [.write (BitVec.ofNat 8 (addr % 256)) n v] } }) ∧
    (∀ x : Nat, (∀ j, j ≠ k → (routeRead addr n x p)[j]? = p[j]?) ∧
      (routeRead addr n x p)[k]? = some { i with core := { i.core with
        inputs := i.core.inputs ++ [.read (BitVec.ofNat 8 (addr % 256)) n x] } })
end

