-- ==== Sys2Proof/Laws/Operands.lean ====
section
/-! SUPPORT. What operand assembly and the arithmetic do, each function once: values of words, of written words, of byte strings,
of the increment and the divider, as natural numbers. -/

namespace Sys2Proof.Machine

/-! ### Words -/

theorem append_toNat {n m : Nat} (x : BitVec n) (y : BitVec m) : (x ++ y).toNat = x.toNat * 2 ^ m + y.toNat := by
  rw [BitVec.toNat_append, ← Nat.shiftLeft_add_eq_or_of_lt y.isLt, Nat.shiftLeft_eq]

theorem word4_toNat (v : Counter) (j : Fin 4) : (word4 v j).toNat = v.toNat / 2 ^ (32 * (3 - j.val)) % 2 ^ 32 := by
  simp [word4, BitVec.extractLsb'_toNat, Nat.shiftRight_eq_div_pow]

theorem word5_toNat (v : Wide) (j : Fin 5) : (word5 v j).toNat = v.toNat / 2 ^ (32 * (4 - j.val)) % 2 ^ 32 := by
  simp [word5, BitVec.extractLsb'_toNat, Nat.shiftRight_eq_div_pow]

theorem join4_toNat (w0 w1 w2 w3 : Word) :
    (join4 w0 w1 w2 w3).toNat = ((w0.toNat * 2 ^ 32 + w1.toNat) * 2 ^ 32 + w2.toNat) * 2 ^ 32 + w3.toNat := by
  simp only [join4, append_toNat]

theorem join5_toNat (w0 w1 w2 w3 w4 : Word) :
    (join5 w0 w1 w2 w3 w4).toNat =
      (((w0.toNat * 2 ^ 32 + w1.toNat) * 2 ^ 32 + w2.toNat) * 2 ^ 32 + w3.toNat) * 2 ^ 32 + w4.toNat := by
  simp only [join5, append_toNat]

/-- The words of a value put together are the value. -/
theorem join4_word4 (v : Counter) : join4 (word4 v 0) (word4 v 1) (word4 v 2) (word4 v 3) = v := by
  apply BitVec.eq_of_toNat_eq
  have := v.isLt
  simp only [join4_toNat, word4_toNat, Fin.val_zero, Fin.val_one, Fin.val_two, show ((3 : Fin 4) : Nat) = 3 from rfl]
  omega

theorem join5_word5 (v : Wide) : join5 (word5 v 0) (word5 v 1) (word5 v 2) (word5 v 3) (word5 v 4) = v := by
  apply BitVec.eq_of_toNat_eq
  have := v.isLt
  simp only [join5_toNat, word5_toNat, Fin.val_zero, Fin.val_one, Fin.val_two, show ((3 : Fin 5) : Nat) = 3 from rfl,
    show ((4 : Fin 5) : Nat) = 4 from rfl]
  omega

/-- Word `k` of words put together is word `k`. -/
theorem word4_join4 (w : Fin 4 → Word) (k : Fin 4) : word4 (join4 (w 0) (w 1) (w 2) (w 3)) k = w k := by
  apply BitVec.eq_of_toNat_eq
  have h0 := (w 0).isLt
  have h1 := (w 1).isLt
  have h2 := (w 2).isLt
  have h3 := (w 3).isLt
  rw [word4_toNat, join4_toNat]
  fin_cases k <;> simp <;> omega

theorem word5_join5 (w : Fin 5 → Word) (k : Fin 5) : word5 (join5 (w 0) (w 1) (w 2) (w 3) (w 4)) k = w k := by
  apply BitVec.eq_of_toNat_eq
  have h0 := (w 0).isLt
  have h1 := (w 1).isLt
  have h2 := (w 2).isLt
  have h3 := (w 3).isLt
  have h4 := (w 4).isLt
  rw [word5_toNat, join5_toNat]
  fin_cases k <;> simp <;> omega

/-- Reading any word after writing word `j`: the word written, or the old one. -/
@[simp] theorem word4_setWord4 (v : Counter) (j k : Fin 4) (w : Word) :
    word4 (setWord4 v j w) k = if k = j then w else word4 v k :=
  word4_join4 (fun k => pickWord j k w (word4 v k)) k

@[simp] theorem word5_setWord5 (v : Wide) (j k : Fin 5) (w : Word) :
    word5 (setWord5 v j w) k = if k = j then w else word5 v k :=
  word5_join5 (fun k => pickWord j k w (word5 v k)) k

/-- A 128-bit value is determined by its words. -/
theorem counter_ext {u v : Counter} (h : ∀ k, word4 u k = word4 v k) : u = v := by
  rw [← join4_word4 u, ← join4_word4 v, h, h, h, h]

theorem wide_ext {u v : Wide} (h : ∀ k, word5 u k = word5 v k) : u = v := by
  rw [← join5_word5 u, ← join5_word5 v, h, h, h, h, h]

/-! ### Byte strings -/

theorem beValue_lt (bs : List Byte) : beValue bs < 2 ^ (8 * bs.length) := by
  induction bs with
  | nil => simp [beValue]
  | cons b bs ih =>
    have hb := b.isLt
    have hm := Nat.mul_le_mul_right (2 ^ (8 * bs.length)) (Nat.succ_le_of_lt hb)
    simp only [beValue, List.length_cons, Nat.mul_add, Nat.pow_add]
    rw [Nat.succ_mul] at hm
    omega

@[simp] theorem bytesBE_length (n v : Nat) : (bytesBE n v).length = n := by
  induction n with
  | zero => rfl
  | succ n ih => simp [bytesBE, ih]

theorem beValue_bytesBE (n v : Nat) : beValue (bytesBE n v) = v % 2 ^ (8 * n) := by
  induction n with
  | zero => simp [bytesBE, beValue, Nat.mod_one]
  | succ n ih =>
    have h : 2 ^ (8 * (n + 1)) = 2 ^ (8 * n) * 2 ^ 8 := by rw [← Nat.pow_add]; ring_nf
    simp only [bytesBE, beValue, bytesBE_length, ih, BitVec.toNat_ofNat, h, Nat.mod_mul]
    ring

/-- Byte strings of one length with one value are the same. -/
theorem beValue_injective {bs cs : List Byte} (hl : bs.length = cs.length) (h : beValue bs = beValue cs) : bs = cs := by
  induction bs generalizing cs with
  | nil => cases cs with
    | nil => rfl
    | cons c cs => simp at hl
  | cons b bs ih => cases cs with
    | nil => simp at hl
    | cons c cs =>
      have hl' : bs.length = cs.length := by simpa using hl
      have hb := beValue_lt bs
      have hc := beValue_lt cs
      simp only [beValue, hl'] at h hb
      have e : b.toNat = c.toNat := by
        have h1 := congrArg (· / 2 ^ (8 * cs.length)) h
        simpa [Nat.mul_add_div (Nat.two_pow_pos _), Nat.div_eq_of_lt hb, Nat.div_eq_of_lt hc, Nat.mul_comm _ (2 ^ _)]
          using h1
      rw [BitVec.eq_of_toNat_eq e, ih hl' (by rw [e] at h; exact Nat.add_left_cancel h)]

/-! ### The increment -/

theorem inc128_toNat (v : Counter) (b : Nat) : (inc128 v b).toNat = (v.toNat + b) % 2 ^ 128 := by
  simp [inc128]

/-- Block counts that agree modulo 2^128 give one result (R85). -/
theorem inc128_congr (v : Counter) {b c : Nat} (h : b % 2 ^ 128 = c % 2 ^ 128) : inc128 v b = inc128 v c := by
  apply BitVec.eq_of_toNat_eq
  rw [inc128_toNat, inc128_toNat, Nat.add_mod, h, ← Nat.add_mod]

/-- The carry chain over `n` pairs gives the sum's low `8n` bits as bytes, and the carry out. -/
theorem carryChain_spec (ps : List (Byte × Byte)) :
    (carryChain ps).1.length = ps.length ∧
    beValue (carryChain ps).1 + (carryChain ps).2 * 2 ^ (8 * ps.length) =
      beValue (ps.map Prod.fst) + beValue (ps.map Prod.snd) := by
  induction ps with
  | nil => simp [carryChain, beValue]
  | cons p ps ih =>
    obtain ⟨x, y⟩ := p
    obtain ⟨hl, hv⟩ := ih
    refine ⟨by simp [carryChain, hl], ?_⟩
    have h : 2 ^ (8 * (ps.length + 1)) = 2 ^ (8 * ps.length) * 256 := by
      rw [show 8 * (ps.length + 1) = 8 * ps.length + 8 by ring, Nat.pow_add]
    simp only [carryChain, beValue, List.map_cons, List.length_cons, List.length_map, hl, h, BitVec.toNat_ofNat,
      show 2 ^ 8 = 256 from rfl, Nat.mod_mod]
    have e := Nat.mod_add_div (x.toNat + y.toNat + (carryChain ps).2) 256
    generalize (x.toNat + y.toNat + (carryChain ps).2) % 256 = m at *
    generalize (x.toNat + y.toNat + (carryChain ps).2) / 256 = d at *
    generalize 2 ^ (8 * ps.length) = P at *
    nlinarith

/-! ### The divider -/

theorem quotientOf_toNat (off : Wide) : (quotientOf off).toNat = off.toNat / 16 := by
  have := off.isLt
  simp only [quotientOf, BitVec.toNat_setWidth, BitVec.extractLsb'_toNat, Nat.shiftRight_eq_div_pow]
  omega

theorem residualOf_toNat (off : Wide) : (residualOf off).toNat = off.toNat % 16 := by
  simp [residualOf, BitVec.extractLsb'_toNat]

theorem quotientOf_lt (off : Wide) : (quotientOf off).toNat < 2 ^ 156 := by
  have := off.isLt
  rw [quotientOf_toNat]
  omega

theorem derivedIv_toNat (iv : Counter) (off : Wide) :
    (derivedIv iv off).toNat = (iv.toNat + off.toNat / 16) % 2 ^ 128 := by
  rw [derivedIv, inc128_toNat, quotientOf_toNat]
  omega

end Sys2Proof.Machine
end

