-- ==== Sys2Proof/Laws/State.lean ====
section
/-! SUPPORT. One lemma per field per update of State, each true by rfl, so that no proof unfolds a record update. -/

namespace Sys2Proof.Machine

/-! ### complete -/

@[simp] theorem complete_fsm (m : BitVec 4) (s : State) : (complete m s).fsm = .idle := rfl
@[simp] theorem complete_ie (m : BitVec 4) (s : State) : (complete m s).ie = s.ie := rfl
@[simp] theorem complete_done (m : BitVec 4) (s : State) : (complete m s).done = true := rfl
@[simp] theorem complete_ovr (m : BitVec 4) (s : State) : (complete m s).ovr = s.ovr := rfl
@[simp] theorem complete_cause (m : BitVec 4) (s : State) : (complete m s).cause = causeOf m := rfl
@[simp] theorem complete_mask (m : BitVec 4) (s : State) : (complete m s).mask = m := rfl
@[simp] theorem complete_keylen (m : BitVec 4) (s : State) : (complete m s).keylen = s.keylen := rfl
@[simp] theorem complete_ivlen (m : BitVec 4) (s : State) : (complete m s).ivlen = s.ivlen := rfl
@[simp] theorem complete_neg (m : BitVec 4) (s : State) : (complete m s).neg = s.neg := rfl
@[simp] theorem complete_ivIn (m : BitVec 4) (s : State) : (complete m s).ivIn = s.ivIn := rfl
@[simp] theorem complete_blk (m : BitVec 4) (s : State) : (complete m s).blk = s.blk := rfl
@[simp] theorem complete_off (m : BitVec 4) (s : State) : (complete m s).off = s.off := rfl
@[simp] theorem complete_ivOut (m : BitVec 4) (s : State) : (complete m s).ivOut = s.ivOut := rfl
@[simp] theorem complete_quot (m : BitVec 4) (s : State) : (complete m s).quot = s.quot := rfl
@[simp] theorem complete_resid (m : BitVec 4) (s : State) : (complete m s).resid = s.resid := rfl
@[simp] theorem complete_latch (m : BitVec 4) (s : State) : (complete m s).latch = s.latch := rfl
@[simp] theorem complete_rst (m : BitVec 4) (s : State) : (complete m s).rst = s.rst := rfl
@[simp] theorem complete_reply (m : BitVec 4) (s : State) : (complete m s).reply = s.reply := rfl
@[simp] theorem complete_inputs (m : BitVec 4) (s : State) : (complete m s).inputs = s.inputs := rfl
@[simp] theorem complete_pins (m : BitVec 4) (s : State) : (complete m s).pins = s.pins := rfl
@[simp] theorem complete_vars (m : BitVec 4) (s : State) : (complete m s).vars = s.vars := rfl
@[simp] theorem complete_hostFault (m : BitVec 4) (s : State) : (complete m s).hostFault = s.hostFault := rfl
@[simp] theorem complete_due (m : BitVec 4) (s : State) : (complete m s).due = s.due := rfl
@[simp] theorem complete_issued (m : BitVec 4) (s : State) : (complete m s).issued = s.issued := rfl
@[simp] theorem complete_resets (m : BitVec 4) (s : State) : (complete m s).resets = s.resets := rfl

/-! ### loadLatch -/

@[simp] theorem loadLatch_fsm (w : Word) (s : State) : (loadLatch w s).fsm = .busy := rfl
@[simp] theorem loadLatch_ie (w : Word) (s : State) : (loadLatch w s).ie = s.ie := rfl
@[simp] theorem loadLatch_done (w : Word) (s : State) : (loadLatch w s).done = false := rfl
@[simp] theorem loadLatch_ovr (w : Word) (s : State) : (loadLatch w s).ovr = s.ovr := rfl
@[simp] theorem loadLatch_cause (w : Word) (s : State) : (loadLatch w s).cause = s.cause := rfl
@[simp] theorem loadLatch_mask (w : Word) (s : State) : (loadLatch w s).mask = s.mask := rfl
@[simp] theorem loadLatch_keylen (w : Word) (s : State) : (loadLatch w s).keylen = s.keylen := rfl
@[simp] theorem loadLatch_ivlen (w : Word) (s : State) : (loadLatch w s).ivlen = s.ivlen := rfl
@[simp] theorem loadLatch_neg (w : Word) (s : State) : (loadLatch w s).neg = s.neg := rfl
@[simp] theorem loadLatch_ivIn (w : Word) (s : State) : (loadLatch w s).ivIn = s.ivIn := rfl
@[simp] theorem loadLatch_blk (w : Word) (s : State) : (loadLatch w s).blk = s.blk := rfl
@[simp] theorem loadLatch_off (w : Word) (s : State) : (loadLatch w s).off = s.off := rfl
@[simp] theorem loadLatch_ivOut (w : Word) (s : State) : (loadLatch w s).ivOut = s.ivOut := rfl
@[simp] theorem loadLatch_quot (w : Word) (s : State) : (loadLatch w s).quot = s.quot := rfl
@[simp] theorem loadLatch_resid (w : Word) (s : State) : (loadLatch w s).resid = s.resid := rfl
@[simp] theorem loadLatch_latch (w : Word) (s : State) : (loadLatch w s).latch = latchOf w s := rfl
@[simp] theorem loadLatch_rst (w : Word) (s : State) : (loadLatch w s).rst = s.rst := rfl
@[simp] theorem loadLatch_reply (w : Word) (s : State) : (loadLatch w s).reply = s.reply := rfl
@[simp] theorem loadLatch_inputs (w : Word) (s : State) : (loadLatch w s).inputs = s.inputs := rfl
@[simp] theorem loadLatch_pins (w : Word) (s : State) : (loadLatch w s).pins = s.pins := rfl
@[simp] theorem loadLatch_vars (w : Word) (s : State) : (loadLatch w s).vars = s.vars := rfl
@[simp] theorem loadLatch_hostFault (w : Word) (s : State) : (loadLatch w s).hostFault = s.hostFault := rfl
@[simp] theorem loadLatch_due (w : Word) (s : State) : (loadLatch w s).due = s.due := rfl
@[simp] theorem loadLatch_issued (w : Word) (s : State) : (loadLatch w s).issued = s.issued := rfl
@[simp] theorem loadLatch_resets (w : Word) (s : State) : (loadLatch w s).resets = s.resets := rfl

/-! ### accept -/

@[simp] theorem accept_fsm (w : Word) (s : State) : (accept w s).fsm = .busy := rfl
@[simp] theorem accept_ie (w : Word) (s : State) : (accept w s).ie = s.ie := rfl
@[simp] theorem accept_done (w : Word) (s : State) : (accept w s).done = false := rfl
@[simp] theorem accept_ovr (w : Word) (s : State) : (accept w s).ovr = s.ovr := rfl
@[simp] theorem accept_cause (w : Word) (s : State) : (accept w s).cause = s.cause := rfl
@[simp] theorem accept_mask (w : Word) (s : State) : (accept w s).mask = s.mask := rfl
@[simp] theorem accept_keylen (w : Word) (s : State) : (accept w s).keylen = s.keylen := rfl
@[simp] theorem accept_ivlen (w : Word) (s : State) : (accept w s).ivlen = s.ivlen := rfl
@[simp] theorem accept_neg (w : Word) (s : State) : (accept w s).neg = s.neg := rfl
@[simp] theorem accept_ivIn (w : Word) (s : State) : (accept w s).ivIn = s.ivIn := rfl
@[simp] theorem accept_blk (w : Word) (s : State) : (accept w s).blk = s.blk := rfl
@[simp] theorem accept_off (w : Word) (s : State) : (accept w s).off = s.off := rfl
@[simp] theorem accept_ivOut (w : Word) (s : State) : (accept w s).ivOut = s.ivOut := rfl
@[simp] theorem accept_quot (w : Word) (s : State) : (accept w s).quot = s.quot := rfl
@[simp] theorem accept_resid (w : Word) (s : State) : (accept w s).resid = s.resid := rfl
@[simp] theorem accept_latch (w : Word) (s : State) : (accept w s).latch = latchOf w s := rfl
@[simp] theorem accept_rst (w : Word) (s : State) : (accept w s).rst = s.rst := rfl
@[simp] theorem accept_reply (w : Word) (s : State) : (accept w s).reply = s.reply := rfl
@[simp] theorem accept_inputs (w : Word) (s : State) : (accept w s).inputs = s.inputs := rfl
@[simp] theorem accept_pins (w : Word) (s : State) : (accept w s).pins = s.pins := rfl
@[simp] theorem accept_vars (w : Word) (s : State) : (accept w s).vars = s.vars := rfl
@[simp] theorem accept_hostFault (w : Word) (s : State) : (accept w s).hostFault = s.hostFault := rfl
@[simp] theorem accept_due (w : Word) (s : State) : (accept w s).due = Config.latency s.issued := rfl
@[simp] theorem accept_issued (w : Word) (s : State) : (accept w s).issued = s.issued + 1 := rfl
@[simp] theorem accept_resets (w : Word) (s : State) : (accept w s).resets = s.resets := rfl

/-! ### inFlight -/

@[simp] theorem inFlight_fsm (w : Word) (s : State) : (inFlight w s).fsm = .busy := rfl
@[simp] theorem inFlight_ie (w : Word) (s : State) : (inFlight w s).ie = s.ie := rfl
@[simp] theorem inFlight_done (w : Word) (s : State) : (inFlight w s).done = false := rfl
@[simp] theorem inFlight_ovr (w : Word) (s : State) : (inFlight w s).ovr = s.ovr := rfl
@[simp] theorem inFlight_cause (w : Word) (s : State) : (inFlight w s).cause = s.cause := rfl
@[simp] theorem inFlight_mask (w : Word) (s : State) : (inFlight w s).mask = s.mask := rfl
@[simp] theorem inFlight_keylen (w : Word) (s : State) : (inFlight w s).keylen = s.keylen := rfl
@[simp] theorem inFlight_ivlen (w : Word) (s : State) : (inFlight w s).ivlen = s.ivlen := rfl
@[simp] theorem inFlight_neg (w : Word) (s : State) : (inFlight w s).neg = s.neg := rfl
@[simp] theorem inFlight_ivIn (w : Word) (s : State) : (inFlight w s).ivIn = s.ivIn := rfl
@[simp] theorem inFlight_blk (w : Word) (s : State) : (inFlight w s).blk = s.blk := rfl
@[simp] theorem inFlight_off (w : Word) (s : State) : (inFlight w s).off = s.off := rfl
@[simp] theorem inFlight_ivOut (w : Word) (s : State) : (inFlight w s).ivOut = s.ivOut := rfl
@[simp] theorem inFlight_quot (w : Word) (s : State) : (inFlight w s).quot = s.quot := rfl
@[simp] theorem inFlight_resid (w : Word) (s : State) : (inFlight w s).resid = s.resid := rfl
@[simp] theorem inFlight_latch (w : Word) (s : State) : (inFlight w s).latch = latchOf w s := rfl
@[simp] theorem inFlight_rst (w : Word) (s : State) : (inFlight w s).rst = false := rfl
@[simp] theorem inFlight_reply (w : Word) (s : State) : (inFlight w s).reply = s.reply := rfl
@[simp] theorem inFlight_inputs (w : Word) (s : State) : (inFlight w s).inputs = s.inputs := rfl
@[simp] theorem inFlight_pins (w : Word) (s : State) : (inFlight w s).pins = [] := rfl
@[simp] theorem inFlight_vars (w : Word) (s : State) : (inFlight w s).vars = s.vars := rfl
@[simp] theorem inFlight_hostFault (w : Word) (s : State) : (inFlight w s).hostFault = s.hostFault := rfl
@[simp] theorem inFlight_due (w : Word) (s : State) : (inFlight w s).due = 0 := rfl
@[simp] theorem inFlight_issued (w : Word) (s : State) : (inFlight w s).issued = s.issued := rfl
@[simp] theorem inFlight_resets (w : Word) (s : State) : (inFlight w s).resets = s.resets := rfl

/-! ### applyReset -/

@[simp] theorem applyReset_fsm (s : State) : (applyReset s).fsm = .idle := rfl
@[simp] theorem applyReset_ie (s : State) : (applyReset s).ie = false := rfl
@[simp] theorem applyReset_done (s : State) : (applyReset s).done = false := rfl
@[simp] theorem applyReset_ovr (s : State) : (applyReset s).ovr = false := rfl
@[simp] theorem applyReset_cause (s : State) : (applyReset s).cause = 0 := rfl
@[simp] theorem applyReset_mask (s : State) : (applyReset s).mask = 0 := rfl
@[simp] theorem applyReset_keylen (s : State) : (applyReset s).keylen = 0 := rfl
@[simp] theorem applyReset_ivlen (s : State) : (applyReset s).ivlen = 0 := rfl
@[simp] theorem applyReset_neg (s : State) : (applyReset s).neg = false := rfl
@[simp] theorem applyReset_ivIn (s : State) : (applyReset s).ivIn = 0 := rfl
@[simp] theorem applyReset_blk (s : State) : (applyReset s).blk = 0 := rfl
@[simp] theorem applyReset_off (s : State) : (applyReset s).off = 0 := rfl
@[simp] theorem applyReset_ivOut (s : State) : (applyReset s).ivOut = 0 := rfl
@[simp] theorem applyReset_quot (s : State) : (applyReset s).quot = 0 := rfl
@[simp] theorem applyReset_resid (s : State) : (applyReset s).resid = 0 := rfl
@[simp] theorem applyReset_latch (s : State) : (applyReset s).latch = drawnLatch s.resets := rfl
@[simp] theorem applyReset_rst (s : State) : (applyReset s).rst = s.rst := rfl
@[simp] theorem applyReset_reply (s : State) : (applyReset s).reply = s.reply := rfl
@[simp] theorem applyReset_inputs (s : State) : (applyReset s).inputs = s.inputs := rfl
@[simp] theorem applyReset_pins (s : State) : (applyReset s).pins = s.pins := rfl
@[simp] theorem applyReset_vars (s : State) : (applyReset s).vars = s.vars := rfl
@[simp] theorem applyReset_hostFault (s : State) : (applyReset s).hostFault = s.hostFault := rfl
@[simp] theorem applyReset_due (s : State) : (applyReset s).due = 0 := rfl
@[simp] theorem applyReset_issued (s : State) : (applyReset s).issued = s.issued := rfl
@[simp] theorem applyReset_resets (s : State) : (applyReset s).resets = s.resets + 1 := rfl

/-! ### setReply -/

@[simp] theorem setReply_fsm (x : Reply) (s : State) : (setReply x s).fsm = s.fsm := rfl
@[simp] theorem setReply_ie (x : Reply) (s : State) : (setReply x s).ie = s.ie := rfl
@[simp] theorem setReply_done (x : Reply) (s : State) : (setReply x s).done = s.done := rfl
@[simp] theorem setReply_ovr (x : Reply) (s : State) : (setReply x s).ovr = s.ovr := rfl
@[simp] theorem setReply_cause (x : Reply) (s : State) : (setReply x s).cause = s.cause := rfl
@[simp] theorem setReply_mask (x : Reply) (s : State) : (setReply x s).mask = s.mask := rfl
@[simp] theorem setReply_keylen (x : Reply) (s : State) : (setReply x s).keylen = s.keylen := rfl
@[simp] theorem setReply_ivlen (x : Reply) (s : State) : (setReply x s).ivlen = s.ivlen := rfl
@[simp] theorem setReply_neg (x : Reply) (s : State) : (setReply x s).neg = s.neg := rfl
@[simp] theorem setReply_ivIn (x : Reply) (s : State) : (setReply x s).ivIn = s.ivIn := rfl
@[simp] theorem setReply_blk (x : Reply) (s : State) : (setReply x s).blk = s.blk := rfl
@[simp] theorem setReply_off (x : Reply) (s : State) : (setReply x s).off = s.off := rfl
@[simp] theorem setReply_ivOut (x : Reply) (s : State) : (setReply x s).ivOut = s.ivOut := rfl
@[simp] theorem setReply_quot (x : Reply) (s : State) : (setReply x s).quot = s.quot := rfl
@[simp] theorem setReply_resid (x : Reply) (s : State) : (setReply x s).resid = s.resid := rfl
@[simp] theorem setReply_latch (x : Reply) (s : State) : (setReply x s).latch = s.latch := rfl
@[simp] theorem setReply_rst (x : Reply) (s : State) : (setReply x s).rst = s.rst := rfl
@[simp] theorem setReply_reply (x : Reply) (s : State) : (setReply x s).reply = some x := rfl
@[simp] theorem setReply_inputs (x : Reply) (s : State) : (setReply x s).inputs = s.inputs := rfl
@[simp] theorem setReply_pins (x : Reply) (s : State) : (setReply x s).pins = s.pins := rfl
@[simp] theorem setReply_vars (x : Reply) (s : State) : (setReply x s).vars = s.vars := rfl
@[simp] theorem setReply_hostFault (x : Reply) (s : State) : (setReply x s).hostFault = s.hostFault := rfl
@[simp] theorem setReply_due (x : Reply) (s : State) : (setReply x s).due = s.due := rfl
@[simp] theorem setReply_issued (x : Reply) (s : State) : (setReply x s).issued = s.issued := rfl
@[simp] theorem setReply_resets (x : Reply) (s : State) : (setReply x s).resets = s.resets := rfl

/-! ### setRst -/

@[simp] theorem setRst_fsm (level : Bool) (s : State) : (setRst level s).fsm = s.fsm := rfl
@[simp] theorem setRst_ie (level : Bool) (s : State) : (setRst level s).ie = s.ie := rfl
@[simp] theorem setRst_done (level : Bool) (s : State) : (setRst level s).done = s.done := rfl
@[simp] theorem setRst_ovr (level : Bool) (s : State) : (setRst level s).ovr = s.ovr := rfl
@[simp] theorem setRst_cause (level : Bool) (s : State) : (setRst level s).cause = s.cause := rfl
@[simp] theorem setRst_mask (level : Bool) (s : State) : (setRst level s).mask = s.mask := rfl
@[simp] theorem setRst_keylen (level : Bool) (s : State) : (setRst level s).keylen = s.keylen := rfl
@[simp] theorem setRst_ivlen (level : Bool) (s : State) : (setRst level s).ivlen = s.ivlen := rfl
@[simp] theorem setRst_neg (level : Bool) (s : State) : (setRst level s).neg = s.neg := rfl
@[simp] theorem setRst_ivIn (level : Bool) (s : State) : (setRst level s).ivIn = s.ivIn := rfl
@[simp] theorem setRst_blk (level : Bool) (s : State) : (setRst level s).blk = s.blk := rfl
@[simp] theorem setRst_off (level : Bool) (s : State) : (setRst level s).off = s.off := rfl
@[simp] theorem setRst_ivOut (level : Bool) (s : State) : (setRst level s).ivOut = s.ivOut := rfl
@[simp] theorem setRst_quot (level : Bool) (s : State) : (setRst level s).quot = s.quot := rfl
@[simp] theorem setRst_resid (level : Bool) (s : State) : (setRst level s).resid = s.resid := rfl
@[simp] theorem setRst_latch (level : Bool) (s : State) : (setRst level s).latch = s.latch := rfl
@[simp] theorem setRst_rst (level : Bool) (s : State) : (setRst level s).rst = level := rfl
@[simp] theorem setRst_reply (level : Bool) (s : State) : (setRst level s).reply = s.reply := rfl
@[simp] theorem setRst_inputs (level : Bool) (s : State) : (setRst level s).inputs = s.inputs := rfl
@[simp] theorem setRst_pins (level : Bool) (s : State) : (setRst level s).pins = s.pins := rfl
@[simp] theorem setRst_vars (level : Bool) (s : State) : (setRst level s).vars = s.vars := rfl
@[simp] theorem setRst_hostFault (level : Bool) (s : State) : (setRst level s).hostFault = s.hostFault := rfl
@[simp] theorem setRst_due (level : Bool) (s : State) : (setRst level s).due = s.due := rfl
@[simp] theorem setRst_issued (level : Bool) (s : State) : (setRst level s).issued = s.issued := rfl
@[simp] theorem setRst_resets (level : Bool) (s : State) : (setRst level s).resets = s.resets := rfl

/-! ### setInputs -/

@[simp] theorem setInputs_fsm (rest : List BusOp) (s : State) : (setInputs rest s).fsm = s.fsm := rfl
@[simp] theorem setInputs_ie (rest : List BusOp) (s : State) : (setInputs rest s).ie = s.ie := rfl
@[simp] theorem setInputs_done (rest : List BusOp) (s : State) : (setInputs rest s).done = s.done := rfl
@[simp] theorem setInputs_ovr (rest : List BusOp) (s : State) : (setInputs rest s).ovr = s.ovr := rfl
@[simp] theorem setInputs_cause (rest : List BusOp) (s : State) : (setInputs rest s).cause = s.cause := rfl
@[simp] theorem setInputs_mask (rest : List BusOp) (s : State) : (setInputs rest s).mask = s.mask := rfl
@[simp] theorem setInputs_keylen (rest : List BusOp) (s : State) : (setInputs rest s).keylen = s.keylen := rfl
@[simp] theorem setInputs_ivlen (rest : List BusOp) (s : State) : (setInputs rest s).ivlen = s.ivlen := rfl
@[simp] theorem setInputs_neg (rest : List BusOp) (s : State) : (setInputs rest s).neg = s.neg := rfl
@[simp] theorem setInputs_ivIn (rest : List BusOp) (s : State) : (setInputs rest s).ivIn = s.ivIn := rfl
@[simp] theorem setInputs_blk (rest : List BusOp) (s : State) : (setInputs rest s).blk = s.blk := rfl
@[simp] theorem setInputs_off (rest : List BusOp) (s : State) : (setInputs rest s).off = s.off := rfl
@[simp] theorem setInputs_ivOut (rest : List BusOp) (s : State) : (setInputs rest s).ivOut = s.ivOut := rfl
@[simp] theorem setInputs_quot (rest : List BusOp) (s : State) : (setInputs rest s).quot = s.quot := rfl
@[simp] theorem setInputs_resid (rest : List BusOp) (s : State) : (setInputs rest s).resid = s.resid := rfl
@[simp] theorem setInputs_latch (rest : List BusOp) (s : State) : (setInputs rest s).latch = s.latch := rfl
@[simp] theorem setInputs_rst (rest : List BusOp) (s : State) : (setInputs rest s).rst = s.rst := rfl
@[simp] theorem setInputs_reply (rest : List BusOp) (s : State) : (setInputs rest s).reply = s.reply := rfl
@[simp] theorem setInputs_inputs (rest : List BusOp) (s : State) : (setInputs rest s).inputs = rest := rfl
@[simp] theorem setInputs_pins (rest : List BusOp) (s : State) : (setInputs rest s).pins = s.pins := rfl
@[simp] theorem setInputs_vars (rest : List BusOp) (s : State) : (setInputs rest s).vars = s.vars := rfl
@[simp] theorem setInputs_hostFault (rest : List BusOp) (s : State) : (setInputs rest s).hostFault = s.hostFault := rfl
@[simp] theorem setInputs_due (rest : List BusOp) (s : State) : (setInputs rest s).due = s.due := rfl
@[simp] theorem setInputs_issued (rest : List BusOp) (s : State) : (setInputs rest s).issued = s.issued := rfl
@[simp] theorem setInputs_resets (rest : List BusOp) (s : State) : (setInputs rest s).resets = s.resets := rfl

/-! ### setPins -/

@[simp] theorem setPins_fsm (rest : List PinChange) (s : State) : (setPins rest s).fsm = s.fsm := rfl
@[simp] theorem setPins_ie (rest : List PinChange) (s : State) : (setPins rest s).ie = s.ie := rfl
@[simp] theorem setPins_done (rest : List PinChange) (s : State) : (setPins rest s).done = s.done := rfl
@[simp] theorem setPins_ovr (rest : List PinChange) (s : State) : (setPins rest s).ovr = s.ovr := rfl
@[simp] theorem setPins_cause (rest : List PinChange) (s : State) : (setPins rest s).cause = s.cause := rfl
@[simp] theorem setPins_mask (rest : List PinChange) (s : State) : (setPins rest s).mask = s.mask := rfl
@[simp] theorem setPins_keylen (rest : List PinChange) (s : State) : (setPins rest s).keylen = s.keylen := rfl
@[simp] theorem setPins_ivlen (rest : List PinChange) (s : State) : (setPins rest s).ivlen = s.ivlen := rfl
@[simp] theorem setPins_neg (rest : List PinChange) (s : State) : (setPins rest s).neg = s.neg := rfl
@[simp] theorem setPins_ivIn (rest : List PinChange) (s : State) : (setPins rest s).ivIn = s.ivIn := rfl
@[simp] theorem setPins_blk (rest : List PinChange) (s : State) : (setPins rest s).blk = s.blk := rfl
@[simp] theorem setPins_off (rest : List PinChange) (s : State) : (setPins rest s).off = s.off := rfl
@[simp] theorem setPins_ivOut (rest : List PinChange) (s : State) : (setPins rest s).ivOut = s.ivOut := rfl
@[simp] theorem setPins_quot (rest : List PinChange) (s : State) : (setPins rest s).quot = s.quot := rfl
@[simp] theorem setPins_resid (rest : List PinChange) (s : State) : (setPins rest s).resid = s.resid := rfl
@[simp] theorem setPins_latch (rest : List PinChange) (s : State) : (setPins rest s).latch = s.latch := rfl
@[simp] theorem setPins_rst (rest : List PinChange) (s : State) : (setPins rest s).rst = s.rst := rfl
@[simp] theorem setPins_reply (rest : List PinChange) (s : State) : (setPins rest s).reply = s.reply := rfl
@[simp] theorem setPins_inputs (rest : List PinChange) (s : State) : (setPins rest s).inputs = s.inputs := rfl
@[simp] theorem setPins_pins (rest : List PinChange) (s : State) : (setPins rest s).pins = rest := rfl
@[simp] theorem setPins_vars (rest : List PinChange) (s : State) : (setPins rest s).vars = s.vars := rfl
@[simp] theorem setPins_hostFault (rest : List PinChange) (s : State) : (setPins rest s).hostFault = s.hostFault := rfl
@[simp] theorem setPins_due (rest : List PinChange) (s : State) : (setPins rest s).due = s.due := rfl
@[simp] theorem setPins_issued (rest : List PinChange) (s : State) : (setPins rest s).issued = s.issued := rfl
@[simp] theorem setPins_resets (rest : List PinChange) (s : State) : (setPins rest s).resets = s.resets := rfl

/-! ### tick -/

@[simp] theorem tick_fsm (s : State) : (tick s).fsm = s.fsm := rfl
@[simp] theorem tick_ie (s : State) : (tick s).ie = s.ie := rfl
@[simp] theorem tick_done (s : State) : (tick s).done = s.done := rfl
@[simp] theorem tick_ovr (s : State) : (tick s).ovr = s.ovr := rfl
@[simp] theorem tick_cause (s : State) : (tick s).cause = s.cause := rfl
@[simp] theorem tick_mask (s : State) : (tick s).mask = s.mask := rfl
@[simp] theorem tick_keylen (s : State) : (tick s).keylen = s.keylen := rfl
@[simp] theorem tick_ivlen (s : State) : (tick s).ivlen = s.ivlen := rfl
@[simp] theorem tick_neg (s : State) : (tick s).neg = s.neg := rfl
@[simp] theorem tick_ivIn (s : State) : (tick s).ivIn = s.ivIn := rfl
@[simp] theorem tick_blk (s : State) : (tick s).blk = s.blk := rfl
@[simp] theorem tick_off (s : State) : (tick s).off = s.off := rfl
@[simp] theorem tick_ivOut (s : State) : (tick s).ivOut = s.ivOut := rfl
@[simp] theorem tick_quot (s : State) : (tick s).quot = s.quot := rfl
@[simp] theorem tick_resid (s : State) : (tick s).resid = s.resid := rfl
@[simp] theorem tick_latch (s : State) : (tick s).latch = s.latch := rfl
@[simp] theorem tick_rst (s : State) : (tick s).rst = s.rst := rfl
@[simp] theorem tick_reply (s : State) : (tick s).reply = s.reply := rfl
@[simp] theorem tick_inputs (s : State) : (tick s).inputs = s.inputs := rfl
@[simp] theorem tick_pins (s : State) : (tick s).pins = tickPins s.pins := rfl
@[simp] theorem tick_vars (s : State) : (tick s).vars = s.vars := rfl
@[simp] theorem tick_hostFault (s : State) : (tick s).hostFault = s.hostFault := rfl
@[simp] theorem tick_due (s : State) : (tick s).due = s.due := rfl
@[simp] theorem tick_issued (s : State) : (tick s).issued = s.issued := rfl
@[simp] theorem tick_resets (s : State) : (tick s).resets = s.resets := rfl

/-! ### recordHostFault -/

@[simp] theorem recordHostFault_fsm (s : State) : (recordHostFault s).fsm = s.fsm := rfl
@[simp] theorem recordHostFault_ie (s : State) : (recordHostFault s).ie = s.ie := rfl
@[simp] theorem recordHostFault_done (s : State) : (recordHostFault s).done = s.done := rfl
@[simp] theorem recordHostFault_ovr (s : State) : (recordHostFault s).ovr = s.ovr := rfl
@[simp] theorem recordHostFault_cause (s : State) : (recordHostFault s).cause = s.cause := rfl
@[simp] theorem recordHostFault_mask (s : State) : (recordHostFault s).mask = s.mask := rfl
@[simp] theorem recordHostFault_keylen (s : State) : (recordHostFault s).keylen = s.keylen := rfl
@[simp] theorem recordHostFault_ivlen (s : State) : (recordHostFault s).ivlen = s.ivlen := rfl
@[simp] theorem recordHostFault_neg (s : State) : (recordHostFault s).neg = s.neg := rfl
@[simp] theorem recordHostFault_ivIn (s : State) : (recordHostFault s).ivIn = s.ivIn := rfl
@[simp] theorem recordHostFault_blk (s : State) : (recordHostFault s).blk = s.blk := rfl
@[simp] theorem recordHostFault_off (s : State) : (recordHostFault s).off = s.off := rfl
@[simp] theorem recordHostFault_ivOut (s : State) : (recordHostFault s).ivOut = s.ivOut := rfl
@[simp] theorem recordHostFault_quot (s : State) : (recordHostFault s).quot = s.quot := rfl
@[simp] theorem recordHostFault_resid (s : State) : (recordHostFault s).resid = s.resid := rfl
@[simp] theorem recordHostFault_latch (s : State) : (recordHostFault s).latch = s.latch := rfl
@[simp] theorem recordHostFault_rst (s : State) : (recordHostFault s).rst = s.rst := rfl
@[simp] theorem recordHostFault_reply (s : State) : (recordHostFault s).reply = s.reply := rfl
@[simp] theorem recordHostFault_inputs (s : State) : (recordHostFault s).inputs = s.inputs := rfl
@[simp] theorem recordHostFault_pins (s : State) : (recordHostFault s).pins = s.pins := rfl
@[simp] theorem recordHostFault_vars (s : State) : (recordHostFault s).vars = s.vars := rfl
@[simp] theorem recordHostFault_hostFault (s : State) : (recordHostFault s).hostFault = true := rfl
@[simp] theorem recordHostFault_due (s : State) : (recordHostFault s).due = s.due := rfl
@[simp] theorem recordHostFault_issued (s : State) : (recordHostFault s).issued = s.issued := rfl
@[simp] theorem recordHostFault_resets (s : State) : (recordHostFault s).resets = s.resets := rfl

/-! ### setVar -/

@[simp] theorem setVar_fsm (x : Nat) (v : Word) (s : State) : (setVar x v s).fsm = s.fsm := rfl
@[simp] theorem setVar_ie (x : Nat) (v : Word) (s : State) : (setVar x v s).ie = s.ie := rfl
@[simp] theorem setVar_done (x : Nat) (v : Word) (s : State) : (setVar x v s).done = s.done := rfl
@[simp] theorem setVar_ovr (x : Nat) (v : Word) (s : State) : (setVar x v s).ovr = s.ovr := rfl
@[simp] theorem setVar_cause (x : Nat) (v : Word) (s : State) : (setVar x v s).cause = s.cause := rfl
@[simp] theorem setVar_mask (x : Nat) (v : Word) (s : State) : (setVar x v s).mask = s.mask := rfl
@[simp] theorem setVar_keylen (x : Nat) (v : Word) (s : State) : (setVar x v s).keylen = s.keylen := rfl
@[simp] theorem setVar_ivlen (x : Nat) (v : Word) (s : State) : (setVar x v s).ivlen = s.ivlen := rfl
@[simp] theorem setVar_neg (x : Nat) (v : Word) (s : State) : (setVar x v s).neg = s.neg := rfl
@[simp] theorem setVar_ivIn (x : Nat) (v : Word) (s : State) : (setVar x v s).ivIn = s.ivIn := rfl
@[simp] theorem setVar_blk (x : Nat) (v : Word) (s : State) : (setVar x v s).blk = s.blk := rfl
@[simp] theorem setVar_off (x : Nat) (v : Word) (s : State) : (setVar x v s).off = s.off := rfl
@[simp] theorem setVar_ivOut (x : Nat) (v : Word) (s : State) : (setVar x v s).ivOut = s.ivOut := rfl
@[simp] theorem setVar_quot (x : Nat) (v : Word) (s : State) : (setVar x v s).quot = s.quot := rfl
@[simp] theorem setVar_resid (x : Nat) (v : Word) (s : State) : (setVar x v s).resid = s.resid := rfl
@[simp] theorem setVar_latch (x : Nat) (v : Word) (s : State) : (setVar x v s).latch = s.latch := rfl
@[simp] theorem setVar_rst (x : Nat) (v : Word) (s : State) : (setVar x v s).rst = s.rst := rfl
@[simp] theorem setVar_reply (x : Nat) (v : Word) (s : State) : (setVar x v s).reply = s.reply := rfl
@[simp] theorem setVar_inputs (x : Nat) (v : Word) (s : State) : (setVar x v s).inputs = s.inputs := rfl
@[simp] theorem setVar_pins (x : Nat) (v : Word) (s : State) : (setVar x v s).pins = s.pins := rfl
@[simp] theorem setVar_vars (x : Nat) (v : Word) (s : State) : (setVar x v s).vars = assignVar x v s.vars := rfl
@[simp] theorem setVar_hostFault (x : Nat) (v : Word) (s : State) : (setVar x v s).hostFault = s.hostFault := rfl
@[simp] theorem setVar_due (x : Nat) (v : Word) (s : State) : (setVar x v s).due = s.due := rfl
@[simp] theorem setVar_issued (x : Nat) (v : Word) (s : State) : (setVar x v s).issued = s.issued := rfl
@[simp] theorem setVar_resets (x : Nat) (v : Word) (s : State) : (setVar x v s).resets = s.resets := rfl

/-! ### writeStatus -/

@[simp] theorem writeStatus_fsm (v : Word) (s : State) : (writeStatus v s).fsm = s.fsm := rfl
@[simp] theorem writeStatus_ie (v : Word) (s : State) : (writeStatus v s).ie = s.ie := rfl
@[simp] theorem writeStatus_done (v : Word) (s : State) : (writeStatus v s).done = (s.done && !v.getLsbD 1) := rfl
@[simp] theorem writeStatus_ovr (v : Word) (s : State) : (writeStatus v s).ovr = (s.ovr && !v.getLsbD 3) := rfl
@[simp] theorem writeStatus_cause (v : Word) (s : State) : (writeStatus v s).cause = s.cause := rfl
@[simp] theorem writeStatus_mask (v : Word) (s : State) : (writeStatus v s).mask = s.mask := rfl
@[simp] theorem writeStatus_keylen (v : Word) (s : State) : (writeStatus v s).keylen = s.keylen := rfl
@[simp] theorem writeStatus_ivlen (v : Word) (s : State) : (writeStatus v s).ivlen = s.ivlen := rfl
@[simp] theorem writeStatus_neg (v : Word) (s : State) : (writeStatus v s).neg = s.neg := rfl
@[simp] theorem writeStatus_ivIn (v : Word) (s : State) : (writeStatus v s).ivIn = s.ivIn := rfl
@[simp] theorem writeStatus_blk (v : Word) (s : State) : (writeStatus v s).blk = s.blk := rfl
@[simp] theorem writeStatus_off (v : Word) (s : State) : (writeStatus v s).off = s.off := rfl
@[simp] theorem writeStatus_ivOut (v : Word) (s : State) : (writeStatus v s).ivOut = s.ivOut := rfl
@[simp] theorem writeStatus_quot (v : Word) (s : State) : (writeStatus v s).quot = s.quot := rfl
@[simp] theorem writeStatus_resid (v : Word) (s : State) : (writeStatus v s).resid = s.resid := rfl
@[simp] theorem writeStatus_latch (v : Word) (s : State) : (writeStatus v s).latch = s.latch := rfl
@[simp] theorem writeStatus_rst (v : Word) (s : State) : (writeStatus v s).rst = s.rst := rfl
@[simp] theorem writeStatus_reply (v : Word) (s : State) : (writeStatus v s).reply = s.reply := rfl
@[simp] theorem writeStatus_inputs (v : Word) (s : State) : (writeStatus v s).inputs = s.inputs := rfl
@[simp] theorem writeStatus_pins (v : Word) (s : State) : (writeStatus v s).pins = s.pins := rfl
@[simp] theorem writeStatus_vars (v : Word) (s : State) : (writeStatus v s).vars = s.vars := rfl
@[simp] theorem writeStatus_hostFault (v : Word) (s : State) : (writeStatus v s).hostFault = s.hostFault := rfl
@[simp] theorem writeStatus_due (v : Word) (s : State) : (writeStatus v s).due = s.due := rfl
@[simp] theorem writeStatus_issued (v : Word) (s : State) : (writeStatus v s).issued = s.issued := rfl
@[simp] theorem writeStatus_resets (v : Word) (s : State) : (writeStatus v s).resets = s.resets := rfl

/-! ### busRead -/

@[simp] theorem busRead_fsm (a : WindowOffset) (n : Nat) (s : State) : (busRead a n s).fsm = s.fsm := rfl
@[simp] theorem busRead_ie (a : WindowOffset) (n : Nat) (s : State) : (busRead a n s).ie = s.ie := rfl
@[simp] theorem busRead_done (a : WindowOffset) (n : Nat) (s : State) : (busRead a n s).done = s.done := rfl
@[simp] theorem busRead_ovr (a : WindowOffset) (n : Nat) (s : State) : (busRead a n s).ovr = s.ovr := rfl
@[simp] theorem busRead_cause (a : WindowOffset) (n : Nat) (s : State) : (busRead a n s).cause = s.cause := rfl
@[simp] theorem busRead_mask (a : WindowOffset) (n : Nat) (s : State) : (busRead a n s).mask = s.mask := rfl
@[simp] theorem busRead_keylen (a : WindowOffset) (n : Nat) (s : State) : (busRead a n s).keylen = s.keylen := rfl
@[simp] theorem busRead_ivlen (a : WindowOffset) (n : Nat) (s : State) : (busRead a n s).ivlen = s.ivlen := rfl
@[simp] theorem busRead_neg (a : WindowOffset) (n : Nat) (s : State) : (busRead a n s).neg = s.neg := rfl
@[simp] theorem busRead_ivIn (a : WindowOffset) (n : Nat) (s : State) : (busRead a n s).ivIn = s.ivIn := rfl
@[simp] theorem busRead_blk (a : WindowOffset) (n : Nat) (s : State) : (busRead a n s).blk = s.blk := rfl
@[simp] theorem busRead_off (a : WindowOffset) (n : Nat) (s : State) : (busRead a n s).off = s.off := rfl
@[simp] theorem busRead_ivOut (a : WindowOffset) (n : Nat) (s : State) : (busRead a n s).ivOut = s.ivOut := rfl
@[simp] theorem busRead_quot (a : WindowOffset) (n : Nat) (s : State) : (busRead a n s).quot = s.quot := rfl
@[simp] theorem busRead_resid (a : WindowOffset) (n : Nat) (s : State) : (busRead a n s).resid = s.resid := rfl
@[simp] theorem busRead_latch (a : WindowOffset) (n : Nat) (s : State) : (busRead a n s).latch = s.latch := rfl
@[simp] theorem busRead_rst (a : WindowOffset) (n : Nat) (s : State) : (busRead a n s).rst = s.rst := rfl
@[simp] theorem busRead_reply (a : WindowOffset) (n : Nat) (s : State) :
    (busRead a n s).reply = some (.read (readAnswer a n s).1 (readAnswer a n s).2) := rfl
@[simp] theorem busRead_inputs (a : WindowOffset) (n : Nat) (s : State) : (busRead a n s).inputs = s.inputs := rfl
@[simp] theorem busRead_pins (a : WindowOffset) (n : Nat) (s : State) : (busRead a n s).pins = s.pins := rfl
@[simp] theorem busRead_vars (a : WindowOffset) (n : Nat) (s : State) : (busRead a n s).vars = s.vars := rfl
@[simp] theorem busRead_hostFault (a : WindowOffset) (n : Nat) (s : State) :
    (busRead a n s).hostFault = (s.hostFault || !accessOk a n) := rfl
@[simp] theorem busRead_due (a : WindowOffset) (n : Nat) (s : State) : (busRead a n s).due = s.due := rfl
@[simp] theorem busRead_issued (a : WindowOffset) (n : Nat) (s : State) : (busRead a n s).issued = s.issued := rfl
@[simp] theorem busRead_resets (a : WindowOffset) (n : Nat) (s : State) : (busRead a n s).resets = s.resets := rfl

end Sys2Proof.Machine
end

