-- ==== Sys2Proof/Laws/Ops.lean ====
section
/-! SUPPORT. What the shared operations do, each said once: the mask and its cause, completion, the meanings as one shape, the
CMD write, and the reset. -/

namespace Sys2Proof.Machine

/-! ### Masks and causes -/

theorem maskOf_eq_zero (k i o l : Bool) :
    maskOf k i o l = 0#4 ↔ k = false ∧ i = false ∧ o = false ∧ l = false := by
  cases k <;> cases i <;> cases o <;> cases l <;> decide

@[simp] theorem causeOf_zero : causeOf 0#4 = 0#4 := rfl

theorem causeOf_eq_zero (m : BitVec 4) : causeOf m = 0#4 ↔ m = 0#4 := by
  revert m
  decide

theorem keyLengthBad_eq_false (n : Word) : keyLengthBad n = false ↔ n = 32#32 := by
  simp [keyLengthBad]

theorem ivLengthBad_eq_false (n : Word) : ivLengthBad n = false ↔ n = 16#32 := by
  simp [ivLengthBad]

theorem offsetNegative_eq_false (neg : Bool) (off : Wide) :
    offsetNegative neg off = false ↔ neg = false ∨ off = 0#160 := by
  cases neg <;> simp [offsetNegative]

/-- The three checks pass together exactly when each passes. -/
theorem checkMask_eq_zero (kl il : Word) (neg : Bool) (off : Wide) :
    checkMask kl il neg off = 0#4 ↔ kl = 32#32 ∧ il = 16#32 ∧ (neg = false ∨ off = 0#160) := by
  simp [checkMask, maskOf_eq_zero, keyLengthBad_eq_false, ivLengthBad_eq_false, offsetNegative_eq_false]

/-- A mask of the three checks lies below 8: bit 3 is never set (R75). -/
theorem checkMask_lt (kl il : Word) (neg : Bool) (off : Wide) : (checkMask kl il neg off).toNat < 8 := by
  unfold checkMask
  cases keyLengthBad kl <;> cases ivLengthBad il <;> cases offsetNegative neg off <;> decide

/-! ### Completion -/

/-- Everything a completion can do: the outputs are written only when no check failed. -/
theorem completeWith_cases (m : BitVec 4) (outputs : State → State) (s : State) :
    (m = 0#4 ∧ completeWith m outputs s = complete 0#4 (outputs s)) ∨
    (m ≠ 0#4 ∧ completeWith m outputs s = complete m s) := by
  by_cases h : m = 0#4
  · exact .inl ⟨h, by simp [completeWith, h]⟩
  · exact .inr ⟨h, by simp [completeWith, h]⟩

/-- The mask a command's completion leaves (R69, R113). -/
def maskOfCommand (i : Instr) (l : Latch) : BitVec 4 :=
  match i with
  | .nop => maskOf false false false false
  | .validate => checkMask l.keylen l.ivlen l.neg l.off
  | .divide => maskOf false false (offsetNegative l.neg l.off) false
  | .increment => maskOf false (ivLengthBad l.ivlen) false false
  | .position => checkMask l.keylen l.ivlen l.neg l.off
  | .copyback => maskOf false false false false

/-- The outputs a command's completion writes when it succeeds (R69). -/
def outputsOfCommand (i : Instr) (l : Latch) (s : State) : State :=
  match i with
  | .nop => s
  | .validate => s
  | .divide => { s with quot := quotientOf l.off, resid := residualOf l.off }
  | .increment => { s with ivOut := inc128 l.iv l.blk.toNat }
  | .position => { s with quot := quotientOf l.off, resid := residualOf l.off, ivOut := derivedIv l.iv l.off }
  | .copyback => { s with ivIn := l.ivout }

/-- Every meaning is a completion with the command's mask and outputs. -/
theorem exec_eq (i : Instr) (s : State) :
    exec i s = .next (completeWith (maskOfCommand i s.latch) (outputsOfCommand i s.latch) s) := by
  cases i <;> rfl

/-- No command of the table sets IllegalCommand. -/
theorem maskOfCommand_lt (i : Instr) (l : Latch) : (maskOfCommand i l).toNat < 8 := by
  cases i <;> simp only [maskOfCommand]
  case validate => exact checkMask_lt _ _ _ _
  case position => exact checkMask_lt _ _ _ _
  case divide => cases offsetNegative l.neg l.off <;> decide
  case increment => cases ivLengthBad l.ivlen <;> decide
  all_goals decide

/-- Everything a meaning can answer: a success, with the command's outputs, or an error, with none. -/
theorem exec_cases {i : Instr} {s t : State} (h : exec i s = .next t) :
    (maskOfCommand i s.latch = 0#4 ∧ t = complete 0#4 (outputsOfCommand i s.latch s)) ∨
    (maskOfCommand i s.latch ≠ 0#4 ∧ t = complete (maskOfCommand i s.latch) s) := by
  rw [exec_eq] at h
  cases h
  exact completeWith_cases _ _ _

theorem execIllegal_eq (s : State) : execIllegal s = .next (complete 8#4 s) := rfl

/-! ### The CMD write and the reset -/

theorem issue_idle {s : State} (w : Word) (h : s.fsm = .idle) : issue w s = accept w s := by
  simp [issue, h]

theorem issue_busy {s : State} (w : Word) (h : s.fsm = .busy) : issue w s = { s with ovr := true } := by
  simp [issue, h]

/-- Everything a write to CTRL can do. -/
theorem writeCtrl_cases (v : Word) (s : State) :
    (v.getLsbD 0 = true ∧ writeCtrl v s = applyReset s) ∨
    (v.getLsbD 0 = false ∧ writeCtrl v s = { s with ie := v.getLsbD 1 }) := by
  unfold writeCtrl
  cases v.getLsbD 0 <;> simp

end Sys2Proof.Machine
end

