-- ==== Sys2Proof/Laws/Window.lean ====
section
/-! SUPPORT. The register window: offsets and registers, what an access to a register does, and reading after writing. -/

namespace Sys2Proof.Machine

@[simp] theorem regAt_regOffset (r : Reg) : regAt (regOffset r) = some r := by
  cases r with
  | ivIn j => fin_cases j <;> rfl
  | blk j => fin_cases j <;> rfl
  | off j => fin_cases j <;> rfl
  | ivOut j => fin_cases j <;> rfl
  | quot j => fin_cases j <;> rfl
  | _ => rfl

/-- A register's offset is the only one that names it. -/
theorem regOffset_of_regAt {a : WindowOffset} {r : Reg} (h : regAt a = some r) : a = regOffset r := by
  have key : ∀ a : WindowOffset, ∀ r ∈ regAt a, a = regOffset r := by decide
  exact key a r h

theorem regOffset_injective {q r : Reg} (h : regOffset q = regOffset r) : q = r := by
  simpa using congrArg regAt h

@[simp] theorem accessOk_regOffset (r : Reg) : accessOk (regOffset r) 4 = true := by
  cases r with
  | ivIn j => fin_cases j <;> rfl
  | blk j => fin_cases j <;> rfl
  | off j => fin_cases j <;> rfl
  | ivOut j => fin_cases j <;> rfl
  | quot j => fin_cases j <;> rfl
  | _ => rfl

/-- An access the port takes is 4 bytes at a multiple of 4 (R56). -/
theorem accessOk_iff (a : WindowOffset) (n : Nat) : accessOk a n = true ↔ n = 4 ∧ a.toNat % 4 = 0 := by
  simp [accessOk]

@[simp] theorem readAnswer_regOffset (r : Reg) (s : State) : readAnswer (regOffset r) 4 s = (.ok, readReg r s) := by
  simp [readAnswer]

@[simp] theorem busWrite_regOffset (r : Reg) (v : Word) (s : State) :
    busWrite (regOffset r) 4 v s = setReply (.write .ok) (writeReg r v s) := by
  simp [busWrite]

/-- Everything a host write can do: a register takes it, a reserved offset ignores it, or the port answers ERROR. -/
theorem busWrite_cases (a : WindowOffset) (n : Nat) (v : Word) (s : State) :
    (∃ r, a = regOffset r ∧ n = 4 ∧ busWrite a n v s = setReply (.write .ok) (writeReg r v s)) ∨
    (accessOk a n = true ∧ regAt a = none ∧ busWrite a n v s = setReply (.write .ok) s) ∨
    (accessOk a n = false ∧ busWrite a n v s = setReply (.write .error) (recordHostFault s)) := by
  by_cases h : accessOk a n = true
  · cases hr : regAt a with
    | none => exact .inr (.inl ⟨h, rfl, by simp [busWrite, h, hr]⟩)
    | some r =>
      refine .inl ⟨r, regOffset_of_regAt hr, ((accessOk_iff a n).1 h).1, by simp [busWrite, h, hr]⟩
  · exact .inr (.inr ⟨by simpa using h, by simp [busWrite, h]⟩)

/-! ### The words of the registers with fields, as numbers -/

theorem ctrlWord_toNat (s : State) : (ctrlWord s).toNat = 2 * s.ie.toNat := by
  unfold ctrlWord
  cases s.ie <;> rfl

theorem statusWord_toNat (s : State) :
    (statusWord s).toNat = s.busy.toNat + 2 * s.done.toNat + 4 * s.errFlag.toNat + 8 * s.ovr.toNat := by
  unfold statusWord
  cases s.ovr <;> cases s.errFlag <;> cases s.done <;> cases s.busy <;> rfl

theorem errWord_toNat (s : State) : (errWord s).toNat = s.cause.toNat + 256 * s.mask.toNat := by
  have h3 := append_toNat (0#20 ++ s.mask ++ 0#4) s.cause
  have h2 := append_toNat (0#20 ++ s.mask) 0#4
  have h1 := append_toNat 0#20 s.mask
  rw [h2, h1] at h3
  refine h3.trans ?_
  simp
  omega

theorem offsignWord_toNat (s : State) : (offsignWord s).toNat = s.neg.toNat := by
  unfold offsignWord
  cases s.neg <;> rfl

/-- The answer at the port is no part of any register's value. -/
@[simp] theorem readReg_reply (r : Reg) (x : Reply) (s : State) : readReg r (setReply x s) = readReg r s := by
  cases r <;> rfl

end Sys2Proof.Machine
end

