-- ==== Sys2Proof/Laws/Agents.lean ====
section
/-! SUPPORT. The host's variables, and everything one step of the machine can do, said once. -/

namespace Sys2Proof.Machine

/-! ### The host's variables -/

theorem lookupVar_assignVar (x y : Nat) (v : Word) (vars : List (Nat × Word)) :
    lookupVar y (assignVar x v vars) = if y = x then some v else lookupVar y vars := by
  induction vars with
  | nil => rfl
  | cons p rest ih =>
    obtain ⟨z, u⟩ := p
    simp only [assignVar]
    split_ifs with h1 h2 h3 h3 h3 <;> simp_all [lookupVar]

theorem assignVar_keys {x : Nat} {v : Word} {vars : List (Nat × Word)} {p : Nat × Word}
    (h : p ∈ assignVar x v vars) : p.1 = x ∨ p ∈ vars := by
  induction vars with
  | nil => simp [assignVar] at h; simp [h]
  | cons q rest ih =>
    obtain ⟨z, u⟩ := q
    simp only [assignVar] at h
    split_ifs at h <;> grind

/-- Setting a variable keeps the canonical form. -/
theorem varsWf_assignVar {x : Nat} {v : Word} {vars : List (Nat × Word)} (h : varsWf vars) :
    varsWf (assignVar x v vars) := by
  induction vars with
  | nil => simp [assignVar]
  | cons q rest ih =>
    obtain ⟨z, u⟩ := q
    rw [varsWf, List.pairwise_cons] at h
    obtain ⟨hz, hrest⟩ := h
    simp only [assignVar]
    split_ifs with h1 h2
    · exact List.pairwise_cons.2 ⟨fun p hp => by
        rcases List.mem_cons.1 hp with rfl | hp
        · exact h1
        · exact lt_trans h1 (hz p hp), List.pairwise_cons.2 ⟨hz, hrest⟩⟩
    · subst h2
      exact List.pairwise_cons.2 ⟨hz, hrest⟩
    · refine List.pairwise_cons.2 ⟨fun p hp => ?_, ih hrest⟩
      rcases assignVar_keys hp with hk | hp
      · simp only [hk]
        omega
      · exact hz p hp

/-! ### Turns and steps -/

/-- No change of the pin is due. -/
abbrev noPinDue (s : State) : Prop := ∀ level rest, s.pins ≠ ⟨0, level⟩ :: rest

/-- A change of the pin that is due moves first (R17, R129). -/
theorem turn_of_pinDue {s : State} {level : Bool} {rest : List PinChange} (h : s.pins = ⟨0, level⟩ :: rest) :
    turn s = .pin level rest := by
  simp [turn, h]

theorem turn_of_noPinDue {s : State} (h : noPinDue s) : turn s = turnAtPort s := by
  unfold turn
  split
  · exact absurd ‹_› (h _ _)
  · rfl

/-- Everything the turn can be: the pin's, because its change is due, or the port's. -/
theorem turn_cases (s : State) :
    (∃ level rest, s.pins = ⟨0, level⟩ :: rest ∧ turn s = .pin level rest) ∨ (noPinDue s ∧ turn s = turnAtPort s) := by
  by_cases h : noPinDue s
  · exact .inr ⟨h, turn_of_noPinDue h⟩
  · simp only [noPinDue, ne_eq, not_forall, not_not] at h
    obtain ⟨level, rest, h⟩ := h
    exact .inl ⟨level, rest, h, turn_of_pinDue h⟩

theorem turnAtPort_block {s : State} (h : s.rst = false ∧ s.fsm = .busy ∧ s.due = 0) : turnAtPort s = .block :=
  if_pos h

/-- When no completion is due, the host's next access moves, if there is one. -/
theorem turnAtPort_of_not_block {s : State} (h : ¬(s.rst = false ∧ s.fsm = .busy ∧ s.due = 0)) :
    turnAtPort s = match s.inputs with
      | [] => .quiet
      | op :: rest => .host op rest := by
  unfold turnAtPort
  exact (if_neg h).trans rfl

theorem turnAtPort_ne_pin (s : State) (level : Bool) (rest : List PinChange) : turnAtPort s ≠ .pin level rest := by
  unfold turnAtPort
  split_ifs
  · simp
  · split <;> simp

theorem turn_pin_iff (s : State) (level : Bool) (rest : List PinChange) :
    turn s = .pin level rest ↔ s.pins = ⟨0, level⟩ :: rest := by
  refine ⟨fun h => ?_, turn_of_pinDue⟩
  rcases turn_cases s with ⟨l, r, hp, ht⟩ | ⟨-, ht⟩
  · rw [ht] at h
    cases h
    exact hp
  · exact absurd (ht.symm.trans h) (turnAtPort_ne_pin s level rest)

theorem turn_block_iff (s : State) :
    turn s = .block ↔ noPinDue s ∧ s.rst = false ∧ s.fsm = .busy ∧ s.due = 0 := by
  constructor
  · intro h
    rcases turn_cases s with ⟨l, r, hp, ht⟩ | ⟨hn, ht⟩
    · rw [ht] at h
      cases h
    · refine ⟨hn, ?_⟩
      by_contra hb
      rw [ht, turnAtPort_of_not_block hb] at h
      split at h <;> cases h
  · exact fun ⟨hn, hb⟩ => (turn_of_noPinDue hn).trans (turnAtPort_block hb)

/-- A pin change that is not the next thing comes one step nearer with every step of another agent. -/
theorem tickPins_succ (n : Nat) (level : Bool) (rest : List PinChange) :
    tickPins (⟨n + 1, level⟩ :: rest) = ⟨n, level⟩ :: rest := rfl

@[simp] theorem tickPins_length (pins : List PinChange) : (tickPins pins).length = pins.length := by
  cases pins <;> rfl

/-- With no change of the pin to come, there is none to count down. -/
theorem tick_of_no_pins {s : State} (h : s.pins = []) : tick s = s := by
  cases s
  simp only at h
  subst h
  rfl

theorem turn_of_no_pins {s : State} (h : s.pins = []) : turn s = turnAtPort s :=
  turn_of_noPinDue (by simp [h])

/-- Counting down a pin's change keeps its level. -/
theorem tickPins_level (pins : List PinChange) : (tickPins pins).any PinChange.level = pins.any PinChange.level := by
  cases pins <;> rfl

/-- Everything a step can do. -/
theorem step_cases {s t : State} (h : step s = .next t) :
    (turn s = .block ∧ blockStep (tick s) = .next t) ∨
    (∃ op rest, turn s = .host op rest ∧ s.rst = false ∧ s.hostFault = false ∧
      t = performOp op rest (passStep (tick s))) ∨
    (∃ op rest, turn s = .host op rest ∧ s.rst = false ∧ s.hostFault = true ∧ s.fsm = .busy ∧ t = passStep (tick s)) ∨
    (∃ level rest, turn s = .pin level rest ∧ t = pinStep level rest s) ∨
    (turn s = .quiet ∧ t = passStep (tick s)) := by
  unfold step at h
  cases ht : turn s with
  | block => exact .inl ⟨rfl, by simpa only [ht, agentStep] using h⟩
  | quiet => exact .inr (.inr (.inr (.inr ⟨rfl, by simpa [ht, agentStep] using h.symm⟩)))
  | pin level rest =>
    exact .inr (.inr (.inr (.inl ⟨level, rest, rfl, by simpa [ht, agentStep] using h.symm⟩)))
  | host op rest =>
    simp only [ht, agentStep, hostStep, tick_rst, tick_hostFault, tick_fsm] at h
    cases hr : s.rst
    · cases hf : s.hostFault
      · exact .inr (.inl ⟨op, rest, rfl, rfl, rfl, by simpa [hr, hf] using h.symm⟩)
      · cases hb : s.fsm
        · simp [hr, hf, hb] at h
        · exact .inr (.inr (.inl ⟨op, rest, rfl, rfl, rfl, rfl, by simpa [hr, hf, hb] using h.symm⟩))
    · simp [hr] at h

/-- The block's step is the meaning of the latched command, or the completion of an illegal word. -/
theorem blockStep_cases (s : State) :
    (∃ i, decode s.latch.cmd = .ok i ∧ blockStep s = exec i s) ∨
    (∃ e, decode s.latch.cmd = .error e ∧ blockStep s = .next (complete 8#4 s)) := by
  unfold blockStep
  cases h : decode s.latch.cmd with
  | ok i => exact .inl ⟨i, rfl, rfl⟩
  | error e => exact .inr ⟨e, rfl, rfl⟩

/-- Everything performing a host operation can do: a register takes a word, or no register of the block changes. -/
theorem performOp_cases (op : BusOp) (rest : List BusOp) (s : State) :
    (∃ r v, op = .write (regOffset r) 4 v ∧
      performOp op rest s = setInputs rest (setReply (.write .ok) (writeReg r v s))) ∨
    (∃ reply inputs vars hostFault, performOp op rest s =
        { s with reply := reply, inputs := inputs, vars := vars, hostFault := hostFault } ∧
      (inputs = rest ∨ inputs = s.inputs) ∧ (vars = s.vars ∨ ∃ x v, vars = assignVar x v s.vars)) := by
  cases op with
  | read a n x => exact .inr ⟨_, _, _, _, rfl, .inl rfl, .inr ⟨_, _, rfl⟩⟩
  | poll a m v =>
    right
    simp only [performOp]
    split_ifs
    · exact ⟨_, _, _, _, rfl, .inr rfl, .inl rfl⟩
    · exact ⟨_, _, _, _, rfl, .inl rfl, .inl rfl⟩
  | write a n v =>
    simp only [performOp]
    rcases busWrite_cases a n v s with ⟨r, ha, hn, e⟩ | ⟨-, -, e⟩ | ⟨-, e⟩
    · exact .inl ⟨r, v, by rw [ha, hn], by rw [e]⟩
    · exact .inr ⟨_, _, _, _, by rw [e]; rfl, .inl rfl, .inl rfl⟩
    · exact .inr ⟨_, _, _, _, by rw [e]; rfl, .inl rfl, .inl rfl⟩

/-- No write to a register changes what is still to come at the pin. -/
@[simp] theorem writeReg_pins (r : Reg) (v : Word) (s : State) : (writeReg r v s).pins = s.pins := by
  cases r with
  | ctrl => rcases writeCtrl_cases v s with ⟨-, e⟩ | ⟨-, e⟩ <;> simp [writeReg, e]
  | cmd =>
    cases h : s.fsm
    · simp [writeReg, issue_idle v h]
    · simp [writeReg, issue_busy v h]
  | _ => rfl

/-- No host operation changes what is still to come at the pin. -/
@[simp] theorem performOp_pins (op : BusOp) (rest : List BusOp) (s : State) : (performOp op rest s).pins = s.pins := by
  rcases performOp_cases op rest s with ⟨r, v, -, e⟩ | ⟨_, _, _, _, e, -⟩ <;> rw [e]
  simp

@[simp] theorem passStep_pins (s : State) : (passStep s).pins = s.pins := by
  unfold passStep
  split_ifs <;> simp

@[simp] theorem passStep_inputs (s : State) : (passStep s).inputs = s.inputs := by
  unfold passStep
  split_ifs <;> simp

/-- A run of one step more begins with that step. -/
theorem run_succ {s t : State} (k : Nat) (h : step s = .next t) :
    Host.Core.run core (k + 1) s = Host.Core.run core k t := by
  have e : core.step s = .next t := h
  simp only [Host.Core.run, e]

/-- A step after a run. -/
theorem run_append_step (k : Nat) : ∀ {s t u : State}, Host.Core.run core k s = .next t → step t = .next u →
    Host.Core.run core (k + 1) s = .next u := by
  induction k with
  | zero =>
    intro s t u h h'
    cases h
    exact run_succ 0 h'
  | succ k ih =>
    intro s t u h h'
    cases hs : step s with
    | next v =>
      rw [run_succ k hs] at h
      rw [run_succ (k + 1) hs]
      exact ih h h'
    | fault r =>
      have e : core.step s = .fault r := hs
      simp only [Host.Core.run, e] at h
      cases h
    | refused r =>
      have e : core.step s = .refused r := hs
      simp only [Host.Core.run, e] at h
      cases h

theorem passStep_low {s : State} (h : s.rst = false) : passStep s = { s with due := s.due - 1 } := by
  simp [passStep, h]

theorem passStep_high {s : State} (h : s.rst = true) : passStep s = applyReset s := by
  simp [passStep, h]

/-- A reset leaves the reset state (R44). -/
theorem atReset_applyReset (s : State) : AtReset (applyReset s) := by
  simp [AtReset]

end Sys2Proof.Machine
end

