-- ==== Sys2Proof/Laws/PerInstr.lean ====
section
/-! SUPPORT. Statements about every command of the table, one lemma per constructor of Instr. -/

namespace Sys2Proof.Laws

/-- A command is well formed, its word has RSV = 0 and its own OPC (30_encoding.md R64, R65), and the word decodes to it. -/
def EncodingRow.Statement (i : Instr) : Prop :=
  i.wf = true ∧ rsvField (encode i) = 0#28 ∧ opcField (encode i) = opcOf i ∧ decode (encode i) = .ok i

theorem EncodingRow.nop : EncodingRow.Statement .nop := ⟨rfl, rfl, rfl, rfl⟩
theorem EncodingRow.validate : EncodingRow.Statement .validate := ⟨rfl, rfl, rfl, rfl⟩
theorem EncodingRow.divide : EncodingRow.Statement .divide := ⟨rfl, rfl, rfl, rfl⟩
theorem EncodingRow.increment : EncodingRow.Statement .increment := ⟨rfl, rfl, rfl, rfl⟩
theorem EncodingRow.position : EncodingRow.Statement .position := ⟨rfl, rfl, rfl, rfl⟩
theorem EncodingRow.copyback : EncodingRow.Statement .copyback := ⟨rfl, rfl, rfl, rfl⟩

end Sys2Proof.Laws
end

