-- ==== Sys2Proof/Tests/Slice0.lean ====
section
/-! SUPPORT. Tests, each about one step or one operation, with values from spec/95_test_vectors.md (the vector's name stands in
the test's comment) or from the rule named; and, for every obligation with hypotheses, a witness that meets them. -/

namespace Sys2Proof.Tests

open Sys2Proof Sys2Proof.Machine

/-- The state after an outcome, if it is a next state. -/
def stateAfter : Host.Outcome State Fault Refusal → Option State
  | .next s => some s
  | .fault _ => none
  | .refused _ => none

/-- A state with the operand registers KEYLEN, IVLEN, NEG, IV_IN, BLK, OFF given. -/
def operands (keylen ivlen : Word) (neg : Bool) (iv blk : Counter) (off : Wide) : State :=
  { State.reset with keylen, ivlen, neg, ivIn := iv, blk, off }

/-- The ERR word after the completion of the command word `w` on `s`. -/
def errAfter (w : Word) (s : State) : Option Word := (stateAfter (step (inFlight w s))).map errWord

/-- ERR and IV_OUT after the completion of `w` on `s`. -/
def ivOutAfter (w : Word) (s : State) : Option (Word × Counter) :=
  (stateAfter (step (inFlight w s))).map fun t => (errWord t, t.ivOut)

/-- ERR, QUOT and RESID after the completion of `w` on `s`. -/
def quotAfter (w : Word) (s : State) : Option (Word × Wide × BitVec 4) :=
  (stateAfter (step (inFlight w s))).map fun t => (errWord t, t.quot, t.resid)

/-! ### Well-formed syntax: each check refuses an ill-formed term -/

theorem test_wf_read_size : (BusOp.read 0x00#8 1 0).wf = false := by decide
theorem test_wf_read_offset : (BusOp.read 0x02#8 4 0).wf = false := by decide
theorem test_wf_write_size : (BusOp.write 0x14#8 2 32#32).wf = false := by decide
theorem test_wf_write_offset : (BusOp.write 0x15#8 4 32#32).wf = false := by decide
theorem test_wf_poll_offset : (BusOp.poll 0x0D#8 1#32 0#32).wf = false := by decide
theorem test_wf_wr128_ivOut : (HostLine.wr128 .ivOut 0#128).wf = false := by decide
theorem test_wf_accepts :
    (BusOp.read 0xFC#8 4 0).wf = true ∧ (HostLine.wr128 .blk 1#128).wf = true ∧ Instr.nop.wf = true := by decide

/-! ### Decoding: words written out from R64 and R65 -/

theorem test_decode_nop : decode 0b00000000000000000000000000000000#32 = .ok .nop := by decide
theorem test_decode_validate : decode 0b00000000000000000000000000000001#32 = .ok .validate := by decide
theorem test_decode_divide : decode 0b00000000000000000000000000000010#32 = .ok .divide := by decide
theorem test_decode_increment : decode 0b00000000000000000000000000000011#32 = .ok .increment := by decide
theorem test_decode_position : decode 0b00000000000000000000000000000100#32 = .ok .position := by decide
theorem test_decode_copyback : decode 0b00000000000000000000000000000101#32 = .ok .copyback := by decide
/-- V-CTL-2 to V-CTL-7: each word is ILLEGAL. -/
theorem test_decode_illegal :
    decode 0x00000006#32 = .error .unassignedOpcode ∧ decode 0x0000000F#32 = .error .unassignedOpcode ∧
    decode 0x00000010#32 = .error .reservedBits ∧ decode 0x00000014#32 = .error .reservedBits ∧
    decode 0x80000001#32 = .error .reservedBits ∧ decode 0xFFFFFFFF#32 = .error .reservedBits := by decide
theorem test_decodeTableWord :
    decodeTableWord 32 4 = some .position ∧ decodeTableWord 32 20 = none ∧ decodeTableWord 64 4 = none ∧
    decodeTableWord 8 5 = some .copyback := by decide

/-! ### Commands -/

/-- V-CTL-1: NOP clears ERR. -/
theorem test_nop_clears_err :
    (stateAfter (step (inFlight 0#32 { State.reset with cause := 1, mask := 1 }))).map
      (fun t => (errWord t, statusWord t)) = some (0#32, 0x00000002#32) := by decide
/-- V-CTL-5, V-CTL-8: an illegal word runs no check, and writes no output. -/
theorem test_illegal_word :
    ivOutAfter 0x14#32 (operands 32 16 false 7 0 37) = some (0x00000804#32, 0#128) ∧
    errAfter 0x11#32 (operands 31 16 false 0 0 0) = some 0x00000804#32 := by decide

/-- V-VAL-2, 4, 5, 6, 8, 9: the mask has every violation, the cause the first. -/
theorem test_validate_err :
    errAfter 1#32 (operands 31 16 false 0 0 0) = some 0x00000101#32 ∧
    errAfter 1#32 (operands 32 17 false 0 0 0) = some 0x00000202#32 ∧
    errAfter 1#32 (operands 32 16 true 0 0 1) = some 0x00000403#32 ∧
    errAfter 1#32 (operands 31 15 false 0 0 0) = some 0x00000301#32 ∧
    errAfter 1#32 (operands 32 17 true 0 0 1) = some 0x00000602#32 ∧
    errAfter 1#32 (operands 31 17 true 0 0 1) = some 0x00000701#32 := by decide
/-- V-VAL-10, 15, 16, V-RST-5. -/
theorem test_validate_corners :
    errAfter 1#32 (operands 32 16 true 0 0 0) = some 0#32 ∧
    errAfter 1#32 (operands 32 0x110 false 0 0 0) = some 0x00000202#32 ∧
    errAfter 1#32 (operands 32 16 false 0 0 0xFFFFFFFFFFFFFFFFFFFFFFFFFFFFFFFFFFFFFFFF) = some 0#32 ∧
    errAfter 1#32 State.reset = some 0x00000301#32 := by decide

/-- V-INC-2, 5, 13, 14: wrap, carry, no sign, operand order. -/
theorem test_increment_value :
    ivOutAfter 3#32 (operands 0 16 false 0xFFFFFFFFFFFFFFFFFFFFFFFFFFFFFFFF 3 0) = some (0#32, 2#128) ∧
    ivOutAfter 3#32 (operands 0 16 false 0x00000000FFFFFFFFFFFFFFFFFFFFFFFF 1 0) =
      some (0#32, 0x00000001000000000000000000000000#128) ∧
    ivOutAfter 3#32 (operands 0 16 false 0x7FFFFFFFFFFFFFFFFFFFFFFFFFFFFFFF 1 0) =
      some (0#32, 0x80000000000000000000000000000000#128) ∧
    ivOutAfter 3#32 (operands 0 16 false 0x0123456789ABCDEF0123456789ABCDEF 0x1000 0) =
      some (0#32, 0x0123456789ABCDEF0123456789ABDDEF#128) := by decide
/-- V-INC-16, 18: IVLEN is the only check, and a failure leaves IV_OUT. -/
theorem test_increment_checks :
    ivOutAfter 3#32 { operands 32 15 false 1 1 0 with ivOut := 9 } = some (0x00000202#32, 9#128) ∧
    ivOutAfter 3#32 (operands 0 16 true 1 1 5) = some (0#32, 2#128) := by decide

/-- V-DIV-6, 11, 12: quotient and residual. -/
theorem test_divide_value :
    quotAfter 2#32 (operands 0 0 false 0 0 37) = some (0#32, 2#160, 5#4) ∧
    quotAfter 2#32 (operands 0 0 false 0 0 0x0000001000000000000000000000000000000011) =
      some (0#32, 0x0000000100000000000000000000000000000001#160, 1#4) ∧
    quotAfter 2#32 (operands 0 0 false 0 0 0xFFFFFFFFFFFFFFFFFFFFFFFFFFFFFFFFFFFFFFFF) =
      some (0#32, 0x0FFFFFFFFFFFFFFFFFFFFFFFFFFFFFFFFFFFFFFF#160, 15#4) := by decide
/-- V-DIV-14, 16: minus zero divides; -37 fails and leaves the outputs. -/
theorem test_divide_sign :
    quotAfter 2#32 { operands 0 0 true 0 0 0 with quot := 3, resid := 3 } = some (0#32, 0#160, 0#4) ∧
    quotAfter 2#32 { operands 0 0 true 0 0 37 with quot := 3, resid := 3 } = some (0x00000403#32, 3#160, 3#4) := by decide

/-- V-POS-3, 5, 8: POSITION's IV_OUT; BLK is not read. -/
theorem test_position_value :
    ivOutAfter 4#32 (operands 32 16 false 0xFFFFFFFFFFFFFFFFFFFFFFFFFFFFFFFF 99 37) = some (0#32, 1#128) ∧
    ivOutAfter 4#32 (operands 32 16 false 0x0123456789ABCDEF0123456789ABCDEF 0
      0x0000001000000000000000000000000000000011) = some (0#32, 0x0123456789ABCDEF0123456789ABCDF0#128) ∧
    ivOutAfter 4#32 (operands 32 16 false 1 0 0x0000000000000000000000100000000000000000) =
      some (0#32, 0x00000000000000010000000000000001#128) ∧
    quotAfter 4#32 (operands 32 16 false 1 0 37) = some (0#32, 2#160, 5#4) := by decide
/-- V-POS-11, 12, 13: a failing POSITION leaves the outputs. -/
theorem test_position_checks :
    ivOutAfter 4#32 { operands 31 16 false 1 0 37 with ivOut := 9 } = some (0x00000101#32, 9#128) ∧
    quotAfter 4#32 { operands 32 16 true 1 0 1 with quot := 9 } = some (0x00000403#32, 9#160, 0#4) ∧
    errAfter 4#32 (operands 31 17 true 0 0 1) = some 0x00000701#32 := by decide

/-- V-CPY-1, 3: IV_IN takes IV_OUT, and ERR is cleared. -/
theorem test_copyback_value :
    (stateAfter (step (inFlight 5#32 { State.reset with ivOut := 0x00000001000000000000000000000000, cause := 2, mask := 2 }))).map
      (fun t => (errWord t, t.ivIn, t.ivOut)) =
    some (0#32, 0x00000001000000000000000000000000#128, 0x00000001000000000000000000000000#128) := by decide
/-- V-CPY-4: a host write to IV_IN0 while COPYBACK is in flight is overwritten. -/
theorem test_copyback_overwrites :
    (stateAfter (step (busWrite 0x20#8 4 0xAAAAAAAA#32 (inFlight 5#32 { State.reset with ivOut := 6 })))).map
      (fun t => t.ivIn) = some 6#128 := by decide

/-! ### The first step after reset, and the port -/

theorem test_withFetchWord_runs :
    stateAfter (step (State.reset.withFetchWord 32 5)) = stateAfter (exec .copyback (State.reset.withFetchWord 32 5)) := by
  decide
/-- V-INC-19: the latch holds BLK = 4 while the register already reads 0x100. -/
theorem test_latch_keeps_operands :
    (stateAfter (step (busWrite 0x3C#8 4 0x100#32 (inFlight 3#32 (operands 0 16 false 3 4 0))))).map
      (fun t => (t.ivOut, t.blk)) = some (7#128, 0x100#128) := by decide
/-- V-CTL-9, 10: an overrun is dropped and sticky until cleared; DONE is kept. -/
theorem test_overrun :
    ((stateAfter (step (busWrite 0x08#8 4 4#32 (inFlight 0#32 State.reset)))).map statusWord) = some 0x0000000A#32 ∧
    statusWord (busWrite 0x0C#8 4 8#32 { State.reset with done := true, ovr := true }) = 0x00000002#32 := by decide
/-- V-CTL-12, V-CTL-13, V-CTL-14: the interrupt and its controls. -/
theorem test_interrupt :
    (stateAfter (step (inFlight 0#32 { State.reset with ie := true }))).map irq = some true ∧
    irq (busWrite 0x0C#8 4 2#32 { State.reset with ie := true, done := true }) = false ∧
    irq (busWrite 0x04#8 4 2#32 { State.reset with done := true }) = true ∧
    (busWrite 0x0C#8 4 1#32 { State.reset with done := true }).done = true := by decide
/-- V-BUS-1, 3, 4, 7, 9: reads. -/
theorem test_bus_reads :
    readAnswer 0x00#8 4 State.reset = (.ok, 0x49564331#32) ∧ readAnswer 0x00#8 1 State.reset = (.error, 0#32) ∧
    readAnswer 0x02#8 4 State.reset = (.error, 0#32) ∧ readAnswer 0xFC#8 4 State.reset = (.ok, 0#32) ∧
    readAnswer 0x08#8 4 State.reset = (.ok, 0#32) ∧ readAnswer 0x0C#8 4 State.reset = (.ok, 0#32) := by decide
/-- V-BUS-5, 8, 10, 11, 13: writes. -/
theorem test_bus_writes :
    (busWrite 0x14#8 2 32#32 State.reset).keylen = 0#32 ∧
    (busWrite 0x88#8 4 0xFFFFFFFF#32 State.reset) = { State.reset with reply := some (.write .ok) } ∧
    readReg .offsign (busWrite 0x1C#8 4 0xFFFFFFFF#32 State.reset) = 1#32 ∧
    readReg .ctrl (busWrite 0x04#8 4 0xFFFFFFFE#32 State.reset) = 2#32 ∧
    errWord (busWrite 0x10#8 4 0#32 { State.reset with cause := 1, mask := 1 }) = 0x00000101#32 := by decide
/-- R20, R141: byte b[0] of an IV is the top byte of IV_IN0. -/
theorem test_word_order :
    (busWrite 0x20#8 4 0xAA000000#32 State.reset).ivIn = 0xAA000000000000000000000000000000#128 ∧
    (busWrite 0x50#8 4 37#32 State.reset).off = 37#160 := by decide
/-- V-RST-3, V-RST-4: SRST wins over IE, and abandons a command in flight. -/
theorem test_soft_reset :
    (busWrite 0x04#8 4 3#32 (operands 32 16 true 1 2 3)).ie = false ∧
    (busWrite 0x04#8 4 3#32 (operands 32 16 true 1 2 3)).off = 0#160 ∧
    (busWrite 0x04#8 4 1#32 (inFlight 2#32 State.reset)).fsm = .idle := by decide
/-- R129: the reset pin's step falls between two reads of a WAIT that is not over, and before a completion due then (R122). -/
theorem test_pin_during_wait :
    (stateAfter (step { inFlight 2#32 State.reset with due := 9, inputs := expandLine .wait, pins := [⟨1, true⟩] })).map turn =
      some (.pin true []) ∧
    (stateAfter (step { inFlight 2#32 State.reset with pins := [⟨0, true⟩] })).map (fun t => (t.fsm, t.done)) =
      some (.idle, false) := by decide
/-- R45, I9: before the first reset R47 need not hold. -/
theorem test_powerOn_is_free : ¬ ErrLegal (powerOn { State.reset with cause := 9 }) := by decide
/-- R126: two windows that meet are no platform; two apart are. -/
theorem test_platform :
    platformWf [⟨0x1000, State.reset⟩, ⟨0x1100, State.reset⟩] = true ∧
    platformWf [⟨0x1000, State.reset⟩, ⟨0x1000, State.reset⟩] = false ∧
    platformWf [⟨0x1010, State.reset⟩] = false ∧ platformWf [] = false := by decide

/-! ### Witnesses: concrete states and operands that meet the hypotheses of the obligations, clause by clause -/

/-- A command with word `w` in flight, `d` steps from its completion, with accesses and pin changes to come. -/
def waiting (w : Word) (d : Nat) (inputs : List BusOp) (pins : List PinChange := []) : State :=
  { inFlight w State.reset with due := d, inputs, pins }

theorem witness_DecodeAcceptsExactlySixWords :
    Instr.copyback.wf = true ∧ decode 5#32 = .ok .copyback := by decide
theorem witness_StepRunsTheLatchedCommand :
    (inFlight 4#32 State.reset).pins = [] ∧ (inFlight 4#32 State.reset).rst = false ∧
    (inFlight 4#32 State.reset).fsm = .busy ∧ (inFlight 4#32 State.reset).due = 0 ∧ decode (inFlight 4#32 State.reset).latch.cmd = .ok .position ∧
    decode (inFlight 6#32 State.reset).latch.cmd = .error .unassignedOpcode := by decide
/-- Both sides of the disjunction at their least values: RSV = 1 with OPC 0, and RSV = 0 with OPC 6. -/
theorem witness_IllegalWordRecordsIllegalCommand :
    (inFlight 16#32 State.reset).latch.cmd.toNat / 16 ≠ 0 ∧ 6 ≤ (inFlight 6#32 State.reset).latch.cmd.toNat % 16 := by decide
theorem witness_NopClearsErr : (inFlight 0#32 State.reset).fsm = .busy := by decide
theorem witness_IncrementAddsModulo :
    (inFlight 3#32 (operands 0 16 true 1 1 5)).latch.ivlen.toNat = 16 ∧
    (inFlight 3#32 (operands 0 15 true 1 1 5)).latch.ivlen.toNat ≠ 16 ∧
    (inFlight 3#32 (operands 0 17 true 1 1 5)).latch.ivlen.toNat ≠ 16 := by decide
theorem witness_DivideSplitsTheOffset :
    (inFlight 2#32 (operands 0 0 false 0 0 1)).latch.neg = false ∧
    (inFlight 2#32 (operands 0 0 true 0 0 0)).latch.off.toNat = 0 ∧
    (inFlight 2#32 (operands 0 0 true 0 0 1)).latch.neg = true ∧
    (inFlight 2#32 (operands 0 0 true 0 0 1)).latch.off.toNat ≠ 0 := by decide
theorem witness_PositionDerivesTheCounter :
    (let l := (inFlight 4#32 (operands 32 16 true 1 2 0)).latch
     l.keylen.toNat = 32 ∧ l.ivlen.toNat = 16 ∧ l.off.toNat = 0) ∧
    (inFlight 4#32 (operands 31 16 false 1 2 0)).latch.keylen.toNat ≠ 32 ∧
    (inFlight 4#32 (operands 32 17 false 1 2 0)).latch.ivlen.toNat ≠ 16 ∧
    (let l := (inFlight 4#32 (operands 32 16 true 1 2 1)).latch
     l.neg = true ∧ l.off.toNat ≠ 0) := by decide
theorem witness_ByteStringsAreBigEndian :
    [1#8, 2#8].length = [1#8, 2#8].length ∧ beValue [1#8, 2#8] = 258 ∧ bytesBE 2 258 = [1#8, 2#8] := by decide
theorem witness_IncrementOfBytesIsRegisterIncrement : (List.replicate 16 255#8).length = 16 := by decide
theorem witness_IncrementObeysItsLaws :
    inc128 (BitVec.allOnes 128) (2 ^ 128 + 3) = inc128 (BitVec.ofNat 128 (2 ^ 128 - 1)) (2 ^ 128 + 3) := by decide
theorem witness_ByteSerialChainRefinesIncrement :
    (List.replicate 16 255#8).length = 16 ∧
    byteSerialIncrement (List.replicate 16 255#8) 3 = List.replicate 15 0#8 ++ [2#8] := by decide
theorem witness_DividerLosesNothing : 37 = 16 * 2 + 5 ∧ (37#160).toNat = 16 * 2 + 5 ∧ 5 < 16 := by decide
theorem witness_OffsetWidthIsExact :
    132 ≤ 160 ∧
    (let l := (inFlight 4#32 (operands 32 16 false 1 0 17)).latch
     l.keylen = 32#32 ∧ l.ivlen = 16#32 ∧ l.neg = false ∧ l.off = BitVec.ofNat 160 (2 ^ 160 + 17)) := by decide
theorem witness_HostPresentationOfOffsets :
    (0 : Int) ≤ 0 ∧ (-1 : Int) < 0 ∧ (-1 : Int).natAbs < 2 ^ 160 ∧ (-(2 ^ 160) : Int) < 0 ∧
    (-(2 ^ 160) : Int).natAbs % 2 ^ 160 = 0 := by decide
theorem witness_PositionAgreesWithIncrement :
    (let l := (inFlight 4#32 (operands 32 16 false 7 0 37)).latch
     let m := (inFlight 3#32 (operands 0 16 false 7 2 0)).latch
     l.keylen = 32#32 ∧ l.ivlen = 16#32 ∧ l.neg = false ∧ m.ivlen = 16#32 ∧ m.iv = l.iv ∧
       m.blk = presentBlocks (l.off.toNat / 16)) := by decide
theorem witness_ChainedIncrementsAddUp : (operands 0 16 false 1 2 0).ivlen = 16#32 := by decide
theorem witness_IdleCmdWriteIsAccepted : State.reset.fsm = .idle := by decide
theorem witness_BusyCmdWriteIsDropped : (inFlight 0#32 State.reset).fsm = .busy := by decide
/-- Equal latches under different registers. -/
theorem witness_CompletionReadsOnlyTheLatch :
    (inFlight 3#32 (operands 0 16 false 3 4 0)).latch =
      (busWrite 0x3C#8 4 0x100#32 (inFlight 3#32 (operands 0 16 false 3 4 0))).latch ∧
    inFlight 3#32 (operands 0 16 false 3 4 0) ≠
      busWrite 0x3C#8 4 0x100#32 (inFlight 3#32 (operands 0 16 false 3 4 0)) := by decide
/-- Equal operands, different results of earlier commands; and commands that succeed from there. -/
theorem witness_CommandsCarryNoResultOver :
    (let a := operands 32 16 false 3 4 37
     let b := { a with ivOut := 9, quot := 8, resid := 7, cause := 1, mask := 1 }
     Instr.position ≠ .copyback ∧ a ≠ b ∧ a.keylen = b.keylen ∧ a.ivlen = b.ivlen ∧ a.neg = b.neg ∧ a.ivIn = b.ivIn ∧
       a.blk = b.blk ∧ a.off = b.off ∧ (stateAfter (exec .position (loadLatch 4#32 a))).map (·.cause) = some 0#4) := by decide
theorem witness_FailedCommandWritesNoOutput :
    (stateAfter (exec .divide (inFlight 2#32 (operands 0 0 true 0 0 1)))).map (·.cause) = some 3#4 := by decide
theorem witness_MaskValuesOfEachCommand :
    ∃ t, exec .validate (inFlight 1#32 State.reset) = .next t ∧ t.mask = 3#4 := ⟨_, rfl, by decide⟩
theorem witness_ReissueGivesTheSameError :
    ∃ t, exec .validate (loadLatch 1#32 State.reset) = .next t ∧ t.cause ≠ 0#4 := ⟨_, rfl, by decide⟩
/-- A size and an offset next to the accepted ones, and a step after the fault is recorded. -/
theorem witness_BadAccessIsAHostFault :
    3 ≠ 4 ∧ (0x01#8).toNat % 4 ≠ 0 ∧
    (∃ t, step { waiting 0#32 1 [] with hostFault := true } = .next t ∧ t.hostFault = true) :=
  ⟨by decide, by decide, _, rfl, rfl⟩
theorem witness_FaultedHostProgramStops :
    (let s := { State.reset with hostFault := true, inputs := [.read 0#8 4 0] }
     s.rst = false ∧ s.hostFault = true ∧ s.fsm = .idle ∧ turn s = .host (.read 0#8 4 0) []) ∧
    (let s := { waiting 0#32 1 [.read 0#8 4 0] with hostFault := true }
     s.rst = false ∧ s.hostFault = true ∧ s.fsm = .busy ∧ turn s = .host (.read 0#8 4 0) []) := by decide
theorem witness_ReadsAnswerAndChangeNothing :
    5 ≠ 4 ∧ (0x83#8).toNat % 4 ≠ 0 ∧ 0x84#8 = regOffset .resid ∧ (0x88#8).toNat % 4 = 0 ∧ regAt 0x88#8 = none := by decide
theorem witness_ReservedOffsetsReadZero :
    0x88 ≤ (0x88#8).toNat ∧ (0x88#8).toNat % 4 = 0 ∧ 0x88 ≤ (0xFC#8).toNat ∧ (0xFC#8).toNat % 4 = 0 := by decide
theorem witness_ReadOnlyRegistersIgnoreWrites :
    regOffset .id = 0x00#8 ∧ regOffset .err = 0x10#8 ∧ regOffset (.ivOut 3) = 0x6C#8 ∧ regOffset (.quot 4) = 0x80#8 ∧
    regOffset .resid = 0x84#8 := by decide
theorem witness_OperandRegistersReadBack :
    regOffset .keylen = 0x14#8 ∧ regOffset (.ivIn 3) = 0x2C#8 ∧ regOffset (.off 4) = 0x50#8 ∧ Reg.blk 0 ≠ .blk 3 := by decide
theorem witness_CtrlWriteSetsIeOrResets :
    (2#32).getLsbD 0 = false ∧ (3#32).getLsbD 0 = true := by decide
/-- The pin's step while it is high already, while IDLE, and while a command is in flight. -/
theorem witness_ResetLeavesTheResetState :
    turn { State.reset with rst := true, pins := [⟨0, true⟩] } = .pin true [] ∧
    turn { State.reset with pins := [⟨0, true⟩] } = .pin true [] ∧
    turn (waiting 2#32 0 [] [⟨0, true⟩]) = .pin true [] ∧ (1#32).getLsbD 0 = true := by decide
theorem witness_ResetAbandonsTheCommand :
    (let s := waiting 2#32 0 [] [⟨0, true⟩, ⟨3, false⟩]
     s.fsm = .busy ∧ turn s = .pin true [⟨3, false⟩] ∧ s.inputs = []) ∧
    (let s := waiting 2#32 1 [.write 0x04#8 4 1#32]
     s.rst = false ∧ s.hostFault = false ∧ s.fsm = .busy ∧ (1#32).getLsbD 0 = true ∧
       turn s = .host (.write 0x04#8 4 1#32) []) := by decide
theorem witness_AccessUnderResetIsRefused :
    (let s := { State.reset with rst := true, inputs := [.read 0#8 4 0] }
     s.rst = true ∧ turn s = .host (.read 0#8 4 0) []) := by decide
/-- A change that is due, one that is due in a step, and one that is due after one read of an unmet POLL. -/
theorem witness_PinMovesBetweenAnyTwoSteps :
    (waiting 2#32 0 [] [⟨0, true⟩]).pins = [⟨0, true⟩] ∧ (waiting 2#32 0 [] [⟨0, false⟩]).rst = false ∧
    (∃ t, step (waiting 2#32 0 [] [⟨1, true⟩]) = .next t) ∧
    (let s := waiting 2#32 9 (expandLine .wait) [⟨1, true⟩]
     s.rst = false ∧ s.hostFault = false ∧ turn s = .host (.poll 0x0C#8 1#32 0#32) [] ∧ s.pins = [⟨1, true⟩] ∧
       (0x0C#8).toNat % 4 = 0 ∧ (readAnswer 0x0C#8 4 s).2 &&& 1#32 ≠ 0#32) :=
  ⟨by decide, by decide, ⟨_, rfl⟩, by decide⟩
theorem witness_InterruptFollowsEnableAndDone :
    irq { State.reset with ie := true, done := true } = true ∧ (2#32).getLsbD 1 = true ∧ State.reset.fsm = .idle := by decide
/-- OVR set and cleared; DONE and BUSY set and cleared by an acceptance and a completion, DONE by a write to STATUS. -/
theorem witness_StatusFlagsChangeOnlyAsStated :
    (∃ t, step (waiting 0#32 1 [.write 0x08#8 4 4#32]) = .next t ∧ t.ovr = true) ∧
    (∃ t, step { State.reset with ovr := true, inputs := [.write 0x0C#8 4 8#32] } = .next t ∧ t.ovr = false) ∧
    (∃ t, step (waiting 0#32 0 []) = .next t ∧ t.done = true ∧ t.fsm = .idle) ∧
    (∃ t, step { State.reset with done := true, inputs := [.write 0x08#8 4 0#32] } = .next t ∧ t.done = false ∧ t.fsm = .busy) ∧
    (∃ t, step { State.reset with done := true, inputs := [.write 0x0C#8 4 2#32] } = .next t ∧ t.done = false) :=
  ⟨⟨_, rfl, rfl⟩, ⟨_, rfl, rfl⟩, ⟨_, rfl, rfl, rfl⟩, ⟨_, rfl, rfl, rfl⟩, ⟨_, rfl, rfl⟩⟩
/-- A completion is no reset. -/
theorem no_reset_of_block {s : State} (h : turn s = .block) (hr : s.rst = false) : ¬ resetsNow s := by
  simp [resetsNow, writesNow, accessNow, h, hr]
/-- A host write to another register than CTRL is no reset. -/
theorem no_reset_of_access {s : State} {a : WindowOffset} {v : Word} {rest : List BusOp}
    (h : turn s = .host (.write a 4 v) rest) (hr : s.rst = false) (ha : a ≠ regOffset .ctrl) : ¬ resetsNow s := by
  rintro (h' | ⟨r, h'⟩ | ⟨w, h', -⟩)
  · simp [hr] at h'
  · simp [h] at h'
  · unfold writesNow accessNow at h'
    rw [h] at h'
    simp only [hr, Bool.false_or] at h'
    split at h' <;> simp_all
/-- A completion changes the outputs and ERR, COPYBACK IV_IN; a host write changes an operand register, an acceptance the
latch. -/
theorem witness_RegistersChangeOnlyByTheirWriters :
    (∃ t, step (inFlight 4#32 (operands 32 16 false 1 0 37)) = .next t ∧ ¬ resetsNow (inFlight 4#32 (operands 32 16 false 1 0 37)) ∧
      t.ivOut ≠ 0#128 ∧ t.quot ≠ 0#160) ∧
    (∃ t, step (inFlight 5#32 { State.reset with ivOut := 6 }) = .next t ∧
      ¬ resetsNow (inFlight 5#32 { State.reset with ivOut := 6 }) ∧ t.ivIn ≠ 0#128) ∧
    (let s := { State.reset with inputs := [.write 0x14#8 4 32#32] }
     ∃ t, step s = .next t ∧ ¬ resetsNow s ∧ t.keylen ≠ s.keylen) ∧
    (∃ t, step (inFlight 16#32 State.reset) = .next t ∧ ¬ resetsNow (inFlight 16#32 State.reset) ∧ t.cause ≠ 0#4) ∧
    (let s := { State.reset with inputs := [.write 0x08#8 4 4#32] }
     ∃ t, step s = .next t ∧ ¬ resetsNow s ∧ t.latch ≠ s.latch) :=
  ⟨⟨_, rfl, no_reset_of_block (by decide) rfl, by decide, by decide⟩, ⟨_, rfl, no_reset_of_block (by decide) rfl, by decide⟩,
    ⟨_, rfl, no_reset_of_access (a := 0x14#8) (v := 32#32) (rest := []) (by decide) rfl (by decide), by decide⟩,
    ⟨_, rfl, no_reset_of_block (by decide) rfl, by decide⟩,
    _, rfl, no_reset_of_access (a := 0x08#8) (v := 4#32) (rest := []) (by decide) rfl (by decide), by decide⟩
theorem witness_StepKeepsTheInvariant :
    Inv (waiting 2#32 1 []) ∧ ∃ t, step (waiting 2#32 1 []) = .next t := ⟨by decide, _, rfl⟩
/-- With no delay, and with a delay in which a host access and a low pin arrive. -/
theorem witness_CommandInFlightCompletesOnce :
    (let s := waiting 2#32 0 []
     s.rst = false ∧ s.fsm = .busy ∧ resetWithin s.due s = false) ∧
    (let s := waiting 2#32 1 [.write 0x04#8 4 2#32, .write 0x04#8 4 1#32] [⟨1, false⟩]
     s.rst = false ∧ s.fsm = .busy ∧ resetWithin s.due s = false) := by decide
theorem witness_IssuedCommandCompletes :
    (let s := { operands 32 16 false 1 0 37 with inputs := [.write 0x08#8 4 (encode .position)] }
     s.rst = false ∧ s.hostFault = false ∧ s.fsm = .idle ∧ s.pins = [] ∧
       s.inputs = [.write 0x08#8 4 (encode .position)]) := by decide
theorem witness_WaitEndsAfterTheCompletion :
    (let s := waiting 2#32 3 (expandLine .wait)
     s.rst = false ∧ s.hostFault = false ∧ s.fsm = .busy ∧ s.pins = [] ∧ s.inputs = expandLine .wait ++ []) := by decide
/-- Variables just below and just above those a wide read names. -/
theorem witness_WideReadsAssembleTheValue : (6 : Nat) < 7 ∧ 7 + 4 ≤ 11 ∧ 7 + 5 ≤ 12 := by decide
theorem witness_InstancesShareNoState :
    ∃ q, stepInstance 1 [⟨0x1000, State.reset⟩, ⟨0x1100, State.reset⟩] = .next q := ⟨_, rfl⟩
/-- The first and the last address of the second window. -/
theorem witness_BusAddressReachesOneInstance :
    platformWf [⟨0x1000, State.reset⟩, ⟨0x1100, State.reset⟩] = true ∧
    [(⟨0x1000, State.reset⟩ : Placed), ⟨0x1100, State.reset⟩][1]? = some ⟨0x1100, State.reset⟩ ∧
    0x1100 ≤ 0x1100 ∧ 0x11FF < 0x1100 + 256 := by decide

end Sys2Proof.Tests
end

namespace Sys2Proof.Machine

/-! ### Byte strings as sums (R12) -/

/-- A byte put in front weighs `256` to the number of bytes behind it, and no other byte's weight changes. -/
theorem beValue_eq_sum (bs : List Byte) :
    beValue bs = ∑ k : Fin bs.length, (bs.get k).toNat * 2 ^ (8 * (bs.length - 1 - k.val)) := by
  induction bs with
  | nil => rfl
  | cons b bs ih =>
    have weight (k : Fin bs.length) : bs.length - (k.val + 1) = bs.length - 1 - k.val := by omega
    simp only [beValue, ih, List.length_cons, Fin.sum_univ_succ, List.get_cons_zero, List.get_cons_succ', Fin.val_zero,
      Fin.val_succ, Nat.add_sub_cancel, Nat.sub_zero, weight]

/-- Settles O11: the sum by induction on the string, then the laws of `bytesBE` and the injectivity of `beValue`. -/
theorem byteStringsAreBigEndian : Obligations.ByteStringsAreBigEndian :=
  ⟨beValue_eq_sum, fun n v => ⟨bytesBE_length n v, beValue_bytesBE n v⟩, fun _ _ => beValue_injective⟩

/-! ### The pin's step (R129) -/

@[simp] theorem pinStep_rst (level : Bool) (rest : List PinChange) (s : State) : (pinStep level rest s).rst = level := by
  cases level <;> rfl

@[simp] theorem pinStep_pins (level : Bool) (rest : List PinChange) (s : State) : (pinStep level rest s).pins = rest := by
  cases level <;> rfl

@[simp] theorem pinStep_inputs (level : Bool) (rest : List PinChange) (s : State) :
    (pinStep level rest s).inputs = s.inputs := by
  cases level <;> simp [pinStep]

theorem atReset_pinStep_high (rest : List PinChange) (s : State) : AtReset (pinStep true rest s) :=
  atReset_applyReset (setPins rest (passStep s))

/-- A low level at a low pin resets nothing: only the delay and the changes to come move on. -/
theorem pinStep_low_of_low {s : State} (rest : List PinChange) (h : s.rst = false) :
    pinStep false rest s = { s with due := s.due - 1, pins := rest } := by
  simp [pinStep, passStep_low h, setPins, setRst, h]

theorem step_of_pinDue {s : State} {level : Bool} {rest : List PinChange} (h : s.pins = ⟨0, level⟩ :: rest) :
    step s = .next (pinStep level rest s) := by
  rw [step, turn_of_pinDue h, agentStep]

/-! ### The changes to come over a step of another agent (R17; log 22) -/

/-- No command's completion changes what is still to come at the pin. -/
theorem exec_pins {i : Instr} {s t : State} (h : exec i s = .next t) : t.pins = s.pins := by
  have outputs : (outputsOfCommand i s.latch s).pins = s.pins := by cases i <;> rfl
  rcases exec_cases h with ⟨-, rfl⟩ | ⟨-, rfl⟩
  · rw [complete_pins, outputs]
  · rw [complete_pins]

theorem blockStep_pins {s t : State} (h : blockStep s = .next t) : t.pins = s.pins := by
  rcases blockStep_cases s with ⟨i, -, e⟩ | ⟨_, -, e⟩
  · exact exec_pins (e.symm.trans h)
  · cases e.symm.trans h
    exact complete_pins 8#4 s

/-- Whichever other agent moves, its step counts once towards the pin's next change. -/
theorem step_pins_of_noPinDue {s t : State} (hn : noPinDue s) (h : step s = .next t) : t.pins = tickPins s.pins := by
  rcases step_cases h with ⟨-, hb⟩ | ⟨op, rest, -, -, -, rfl⟩ | ⟨_, _, -, -, -, -, rfl⟩ | ⟨level, rest, ht, -⟩ | ⟨-, rfl⟩
  · rw [blockStep_pins hb, tick_pins]
  · rw [performOp_pins, passStep_pins, tick_pins]
  · rw [passStep_pins, tick_pins]
  · exact absurd ((turn_pin_iff s level rest).1 ht) (hn level rest)
  · rw [passStep_pins, tick_pins]

theorem step_pins_of_succ {s t : State} {n : Nat} {level : Bool} {rest : List PinChange}
    (hp : s.pins = ⟨n + 1, level⟩ :: rest) (h : step s = .next t) : t.pins = ⟨n, level⟩ :: rest := by
  rw [step_pins_of_noPinDue (by simp [noPinDue, hp]) h, hp, tickPins_succ]

/-! ### A read of an unmet POLL (R72; log 18) -/

/-- The host's step while neither the reset nor a recorded fault stands in its way. -/
theorem step_of_host {s : State} {op : BusOp} {rest : List BusOp} (ht : turn s = .host op rest) (hr : s.rst = false)
    (hf : s.hostFault = false) : step s = .next (performOp op rest (passStep (tick s))) := by
  simp [step, ht, agentStep, hostStep, hr, hf]

/-- Neither the delay before a completion nor the changes to come at the pin are part of any register's value. -/
theorem readReg_due_pins (r : Reg) (due : Nat) (pins : List PinChange) (s : State) :
    readReg r { s with due := due, pins := pins } = readReg r s := by
  cases r <;> rfl

/-- What the port answers does not depend on a step going by while the block is not held at reset. -/
theorem readAnswer_passStep_tick {s : State} (a : WindowOffset) (n : Nat) (hr : s.rst = false) :
    readAnswer a n (passStep (tick s)) = readAnswer a n s := by
  have passed : passStep (tick s) = { s with due := s.due - 1, pins := tickPins s.pins } := passStep_low (s := tick s) hr
  simp only [passed, readAnswer, readReg_due_pins]

/-- A POLL whose condition is not met is a read, and stays the next access. -/
theorem performOp_poll_unmet {a : WindowOffset} {mask val : Word} {s : State} (rest : List BusOp)
    (ha : a.toNat % 4 = 0) (hv : (readAnswer a 4 s).2 &&& mask ≠ val) :
    performOp (.poll a mask val) rest s = busRead a 4 s := by
  have ok : accessOk a 4 = true := (accessOk_iff a 4).2 ⟨rfl, ha⟩
  simp [performOp, ok, hv]

theorem step_of_unmet_poll {s : State} {a : WindowOffset} {mask val : Word} {rest : List BusOp} (hr : s.rst = false)
    (hf : s.hostFault = false) (ht : turn s = .host (.poll a mask val) rest) (ha : a.toNat % 4 = 0)
    (hv : (readAnswer a 4 s).2 &&& mask ≠ val) : step s = .next (busRead a 4 (passStep (tick s))) := by
  rw [← readAnswer_passStep_tick a 4 hr] at hv
  rw [step_of_host ht hr hf, performOp_poll_unmet rest ha hv]

/-- Settles O43: the pin's step where its change is due, one step counted where it is not, and the unmet POLL's read as
one such step. -/
theorem pinMovesBetweenAnyTwoSteps : Obligations.PinMovesBetweenAnyTwoSteps := by
  refine ⟨fun s level rest hp => ?_, fun s t n level rest => step_pins_of_succ,
    fun s a mask val rest n level later hr hf ht hp ha hv => ?_⟩
  · refine ⟨_, step_of_pinDue hp, pinStep_rst _ _ _, pinStep_pins _ _ _, pinStep_inputs _ _ _, ?_, ?_⟩
    · rintro rfl
      exact atReset_pinStep_high rest s
    · rintro rfl hr
      exact pinStep_low_of_low rest hr
  · have hstep := step_of_unmet_poll hr hf ht ha hv
    have hpins := step_pins_of_succ hp hstep
    refine ⟨_, hstep, by simp, hpins, ?_⟩
    rintro rfl
    exact turn_of_pinDue hpins

end Sys2Proof.Machine

namespace Sys2Proof.Machine

/-! ### A step going by, and the reset (R44, R129) -/

/-- A step of another agent at a low pin moves only the delay and the changes to come on. -/
theorem passStep_tick_low {s : State} (hr : s.rst = false) :
    passStep (tick s) = { s with due := s.due - 1, pins := tickPins s.pins } :=
  passStep_low (s := tick s) hr

theorem passStep_sameHost (s : State) : SameHost s (passStep s) := by
  unfold passStep
  split_ifs <;> simp [SameHost]

theorem pinStep_sameHost (level : Bool) (rest : List PinChange) (s : State) : SameHost s (pinStep level rest s) := by
  cases level <;> exact passStep_sameHost s

theorem irq_of_atReset {s : State} (h : AtReset s) : irq s = false := by
  obtain ⟨-, hie, -⟩ := h
  simp [irq, hie]

theorem atReset_reset : AtReset State.reset := by decide

/-- The reset state has the invariant, whatever level the pin has. -/
theorem inv_of_atReset {s : State} (h : AtReset s) (hdue : s.due = 0) (hvars : varsWf s.vars) : Inv s := by
  have ⟨_, _, hdone, _, hcause, hmask, _, _, _, _, _, _, _, hquot, _⟩ := h
  exact ⟨⟨by simp [hcause, hmask], .inl (by simp [hmask])⟩, by simp [QuotLegal, hquot], ⟨fun _ => hdone, fun _ => hdue⟩,
    fun _ => h, hvars⟩

/-- Settles O48: the reset state, with no host variable set. -/
theorem resetHasTheInvariant : Obligations.ResetHasTheInvariant :=
  inv_of_atReset atReset_reset rfl List.Pairwise.nil

/-! ### Everything a write to a register can do (R51) -/

theorem fsm_cases (s : State) : s.fsm = .idle ∨ s.fsm = .busy := by
  cases s.fsm <;> simp

/-- A write resets, sets IE, is accepted, overruns, clears flags, or reaches no register but the operand register it names;
a write to a read-only register is the last case with nothing changed (R53). -/
theorem writeReg_cases (r : Reg) (v : Word) (s : State) :
    (r = .ctrl ∧ v.getLsbD 0 = true ∧ writeReg r v s = applyReset s) ∨
    (r = .ctrl ∧ writeReg r v s = { s with ie := v.getLsbD 1 }) ∨
    (r = .cmd ∧ s.fsm = .idle ∧ writeReg r v s = accept v s) ∨
    (r = .cmd ∧ s.fsm = .busy ∧ writeReg r v s = { s with ovr := true }) ∨
    (r = .status ∧ writeReg r v s = writeStatus v s) ∨
    (∃ keylen ivlen neg ivIn blk off,
      writeReg r v s = { s with keylen := keylen, ivlen := ivlen, neg := neg, ivIn := ivIn, blk := blk, off := off } ∧
      (keylen ≠ s.keylen → r = .keylen) ∧ (ivlen ≠ s.ivlen → r = .ivlen) ∧ (neg ≠ s.neg → r = .offsign) ∧
      (ivIn ≠ s.ivIn → ∃ j, r = .ivIn j) ∧ (blk ≠ s.blk → ∃ j, r = .blk j) ∧ (off ≠ s.off → ∃ j, r = .off j)) := by
  cases r with
  | ctrl =>
    rcases writeCtrl_cases v s with ⟨h, e⟩ | ⟨-, e⟩
    · exact .inl ⟨rfl, h, e⟩
    · exact .inr (.inl ⟨rfl, e⟩)
  | cmd =>
    rcases fsm_cases s with idle | busy
    · exact .inr (.inr (.inl ⟨rfl, idle, issue_idle v idle⟩))
    · exact .inr (.inr (.inr (.inl ⟨rfl, busy, issue_busy v busy⟩)))
  | status => exact .inr (.inr (.inr (.inr (.inl ⟨rfl, rfl⟩))))
  | _ => exact .inr (.inr (.inr (.inr (.inr ⟨_, _, _, _, _, _, rfl, by simp⟩))))

/-- The host's write is performed while the pin is low and no fault is recorded. -/
theorem writesNow_of_host {s : State} {r : Reg} {v : Word} {rest : List BusOp}
    (ht : turn s = .host (.write (regOffset r) 4 v) rest) (hr : s.rst = false) (hf : s.hostFault = false) :
    writesNow r v s := by
  simp [writesNow, accessNow, ht, hr, hf]

theorem rst_of_writesNow {s : State} {r : Reg} {v : Word} (h : writesNow r v s) : s.rst = false := by
  unfold writesNow accessNow at h
  split at h
  · cases hr : s.rst
    · rfl
    · simp [hr] at h
  · cases h

theorem completesNow_iff (s : State) : completesNow s = true ↔ turn s = .block := by
  simp [completesNow]

/-! ### Everything a successful completion writes (R69) -/

/-- The outputs of a command: each only by the commands that own it, and a quotient lies below `2^156`. -/
theorem outputsOfCommand_cases (i : Instr) (l : Latch) (s : State) :
    ∃ ivIn ivOut quot resid,
      outputsOfCommand i l s = { s with ivIn := ivIn, ivOut := ivOut, quot := quot, resid := resid } ∧
      (ivIn ≠ s.ivIn → i = .copyback) ∧ (ivOut ≠ s.ivOut → i = .increment ∨ i = .position) ∧
      (quot ≠ s.quot ∨ resid ≠ s.resid → i = .divide ∨ i = .position) ∧
      (quot = s.quot ∨ quot.toNat < 2 ^ 156) := by
  cases i with
  | divide => exact ⟨_, _, _, _, rfl, by simp, by simp, by simp, .inr (quotientOf_lt _)⟩
  | position => exact ⟨_, _, _, _, rfl, by simp, by simp, by simp, .inr (quotientOf_lt _)⟩
  | _ => exact ⟨_, _, _, _, rfl, by simp, by simp, by simp, .inl rfl⟩

/-! ### Everything a step can change -/

/-- What one step does to the block's state, by its event. The model's own fields are left free where a step only moves them
on. -/
inductive StepChange (s : State) : State → Prop
  /-- The block is, or is held, at the reset state (R129, R130). -/
  | reset {t : State} (event : resetsNow s) (regs : AtReset t) (due : t.due = 0) (vars : t.vars = s.vars) : StepChange s t
  /-- The command in flight completes without an error (R106). -/
  | success (i : Instr) (now : completesNow s = true) (decoded : decode s.latch.cmd = .ok i) :
    StepChange s (complete 0#4 (outputsOfCommand i s.latch (tick s)))
  /-- The command in flight, or an illegal word, completes with an error (R106, R108, R115). -/
  | failure (m : BitVec 4) (now : completesNow s = true) (error : m ≠ 0#4) (legal : m.toNat < 8 ∨ m = 8#4) :
    StepChange s (complete m (tick s))
  /-- IE is written (R24). -/
  | ctrl (v : Word) (write : writesNow .ctrl v s) (pins : List PinChange) (rest : List BusOp) :
    StepChange s { s with
      ie := v.getLsbD 1, due := s.due - 1, pins := pins, reply := some (.write .ok), inputs := rest }
  /-- A command is accepted (R105). -/
  | acceptance (v : Word) (write : writesNow .cmd v s) (idle : s.fsm = .idle) (pins : List PinChange) (rest : List BusOp) :
    StepChange s { s with
      latch := latchOf v s, done := false, fsm := .busy, due := Config.latency s.issued, issued := s.issued + 1,
      pins := pins, reply := some (.write .ok), inputs := rest }
  /-- A CMD write is dropped (R107). -/
  | overrun (v : Word) (write : writesNow .cmd v s) (busy : s.fsm = .busy) (pins : List PinChange) (rest : List BusOp) :
    StepChange s { s with
      ovr := true, due := s.due - 1, pins := pins, reply := some (.write .ok), inputs := rest }
  /-- Flags are cleared (R54). -/
  | status (v : Word) (write : writesNow .status v s) (pins : List PinChange) (rest : List BusOp) :
    StepChange s { s with
      done := s.done && !v.getLsbD 1, ovr := s.ovr && !v.getLsbD 3,
      due := s.due - 1, pins := pins, reply := some (.write .ok), inputs := rest }
  /-- An operand register takes its word (R52), or a read-only one ignores it (R53). -/
  | operand (r : Reg) (v : Word) (write : writesNow r v s)
    (keylen ivlen : Word) (neg : Bool) (ivIn blk : Counter) (off : Wide)
    (keylen_writer : keylen ≠ s.keylen → r = .keylen) (ivlen_writer : ivlen ≠ s.ivlen → r = .ivlen)
    (neg_writer : neg ≠ s.neg → r = .offsign) (ivIn_writer : ivIn ≠ s.ivIn → ∃ j, r = .ivIn j)
    (blk_writer : blk ≠ s.blk → ∃ j, r = .blk j) (off_writer : off ≠ s.off → ∃ j, r = .off j)
    (pins : List PinChange) (rest : List BusOp) :
    StepChange s { s with
      keylen := keylen, ivlen := ivlen, neg := neg, ivIn := ivIn, blk := blk, off := off,
      due := s.due - 1, pins := pins, reply := some (.write .ok), inputs := rest }
  /-- Nothing changes but at the ports and the host's side. -/
  | quiet (low : s.rst = false) (pins : List PinChange) (reply : Option Reply) (inputs : List BusOp)
    (vars : List (Nat × Word)) (hostFault : Bool) (vars_kept : varsWf s.vars → varsWf vars) :
    StepChange s { s with
      due := s.due - 1, pins := pins, reply := reply, inputs := inputs, vars := vars, hostFault := hostFault }

theorem StepChange.of_blockStep {s t : State} (ht : turn s = .block) (h : blockStep (tick s) = .next t) :
    StepChange s t := by
  have now := (completesNow_iff s).2 ht
  rcases blockStep_cases (tick s) with ⟨i, hd, e⟩ | ⟨_, -, e⟩ <;> rw [e] at h
  · rcases exec_cases h with ⟨-, rfl⟩ | ⟨error, rfl⟩
    · exact .success i now hd
    · exact .failure _ now error (.inl (maskOfCommand_lt _ _))
  · cases h
    exact .failure 8#4 now (by decide) (.inr rfl)

theorem StepChange.of_writeReg {s : State} {r : Reg} {v : Word} (rest : List BusOp) (write : writesNow r v s) :
    StepChange s (setInputs rest (setReply (.write .ok) (writeReg r v (passStep (tick s))))) := by
  have regs := atReset_applyReset { s with due := s.due - 1, pins := tickPins s.pins }
  rw [passStep_tick_low (rst_of_writesNow write)]
  rcases writeReg_cases r v { s with due := s.due - 1, pins := tickPins s.pins } with
    ⟨rfl, hv, e⟩ | ⟨rfl, e⟩ | ⟨rfl, idle, e⟩ | ⟨rfl, busy, e⟩ | ⟨rfl, e⟩ |
    ⟨keylen, ivlen, neg, ivIn, blk, off, e, hkeylen, hivlen, hneg, hivIn, hblk, hoff⟩ <;> rw [e]
  · exact .reset (.inr (.inr ⟨v, write, hv⟩)) regs rfl rfl
  · exact .ctrl v write _ rest
  · exact .acceptance v write idle _ rest
  · exact .overrun v write busy _ rest
  · exact .status v write _ rest
  · exact .operand r v write keylen ivlen neg ivIn blk off hkeylen hivlen hneg hivIn hblk hoff _ rest

theorem StepChange.of_performOp {s : State} {op : BusOp} {rest : List BusOp} (ht : turn s = .host op rest)
    (hr : s.rst = false) (hf : s.hostFault = false) : StepChange s (performOp op rest (passStep (tick s))) := by
  rcases performOp_cases op rest (passStep (tick s)) with ⟨r, v, rfl, e⟩ | ⟨reply, inputs, vars, hostFault, e, -, hvars⟩ <;>
    rw [e]
  · exact .of_writeReg rest (writesNow_of_host ht hr hf)
  · rw [passStep_tick_low hr] at hvars ⊢
    refine .quiet hr _ reply inputs vars hostFault fun wf => ?_
    rcases hvars with rfl | ⟨x, v, rfl⟩
    · exact wf
    · exact varsWf_assignVar wf

theorem StepChange.of_passStep (s : State) : StepChange s (passStep (tick s)) := by
  cases hr : s.rst with
  | true =>
    rw [passStep_high (s := tick s) hr]
    exact .reset (.inl hr) (atReset_applyReset _) rfl rfl
  | false =>
    rw [passStep_tick_low hr]
    exact .quiet hr _ _ _ _ _ id

theorem StepChange.of_pinStep {s : State} {level : Bool} {rest : List PinChange} (ht : turn s = .pin level rest) :
    StepChange s (pinStep level rest s) := by
  obtain ⟨hvars, -⟩ := pinStep_sameHost level rest s
  cases level with
  | true => exact .reset (.inr (.inl ⟨rest, ht⟩)) (atReset_pinStep_high rest s) rfl hvars
  | false =>
    cases hr : s.rst with
    | true =>
      have held : pinStep false rest s = setRst false (setPins rest (applyReset s)) := by simp [pinStep, passStep_high hr]
      rw [held]
      exact .reset (.inl hr) (atReset_applyReset s) rfl rfl
    | false =>
      rw [pinStep_low_of_low rest hr]
      exact .quiet hr _ _ _ _ _ id

/-- Every step is one of these changes. -/
theorem step_change {s t : State} (h : step s = .next t) : StepChange s t := by
  rcases step_cases h with ⟨ht, hb⟩ | ⟨op, rest, ht, hr, hf, rfl⟩ | ⟨_, _, -, -, -, -, rfl⟩ | ⟨level, rest, ht, rfl⟩ |
    ⟨-, rfl⟩
  · exact .of_blockStep ht hb
  · exact .of_performOp ht hr hf
  · exact .of_passStep s
  · exact .of_pinStep ht
  · exact .of_passStep s

/-! ### The invariant (R47) -/

/-- A completion ends the flight: DONE may be 1 again, and its delay was over. -/
theorem inv_complete {s : State} {m : BitVec 4} (legal : m.toNat < 8 ∨ m = 8#4) (hquot : QuotLegal s) (hdue : s.due = 0)
    (hr : s.rst = false) (hvars : varsWf s.vars) : Inv (complete m s) :=
  ⟨⟨rfl, legal⟩, hquot, ⟨by simp, fun _ => hdue⟩, by simp [hr], hvars⟩

/-- Settles O47, by what a step can change. -/
theorem stepKeepsTheInvariant : Obligations.StepKeepsTheInvariant := by
  intro s t hinv h
  have ⟨herr, hquot, ⟨hbusy, hidle⟩, _, hvars⟩ := hinv
  have hidle' (hi : s.fsm = .idle) : s.due - 1 = 0 := by rw [hidle hi]
  cases step_change h with
  | reset _ regs due vars => exact inv_of_atReset regs due (by rwa [vars])
  | success i now _ =>
    obtain ⟨-, hr, -, hdue⟩ := (turn_block_iff s).1 ((completesNow_iff s).1 now)
    obtain ⟨_, _, quot, _, e, -, -, -, hq⟩ := outputsOfCommand_cases i s.latch (tick s)
    have hquot' : quot.toNat < 2 ^ 156 := hq.elim (fun hq => by rw [hq]; exact hquot) id
    rw [e]
    exact inv_complete (.inl (by decide)) hquot' hdue hr hvars
  | failure m now _ legal =>
    obtain ⟨-, hr, -, hdue⟩ := (turn_block_iff s).1 ((completesNow_iff s).1 now)
    exact inv_complete legal hquot hdue hr hvars
  | ctrl v write => exact ⟨herr, hquot, ⟨hbusy, hidle'⟩, by simp [rst_of_writesNow write], hvars⟩
  | acceptance v write => exact ⟨herr, hquot, ⟨by simp, by simp⟩, by simp [rst_of_writesNow write], hvars⟩
  | overrun v write => exact ⟨herr, hquot, ⟨hbusy, hidle'⟩, by simp [rst_of_writesNow write], hvars⟩
  | status v write =>
    exact ⟨herr, hquot, ⟨fun hb => by simp [hbusy hb], hidle'⟩, by simp [rst_of_writesNow write], hvars⟩
  | operand r v write => exact ⟨herr, hquot, ⟨hbusy, hidle'⟩, by simp [rst_of_writesNow write], hvars⟩
  | quiet low _ _ _ _ _ vars_kept => exact ⟨herr, hquot, ⟨hbusy, hidle'⟩, by simp [low], vars_kept hvars⟩

/-! ### The flags and the registers over a step (R19, R26, R38, R40) -/

/-- A reset leaves OVR, DONE and FSM at 0 and IDLE, so it sets none of them. -/
theorem flags_of_atReset {s : State} (h : AtReset s) : s.ovr = false ∧ s.done = false ∧ s.fsm = .idle := by
  have ⟨hfsm, _, hdone, hovr, _⟩ := h
  exact ⟨hovr, hdone, hfsm⟩

@[simp] theorem outputsOfCommand_ovr (i : Instr) (l : Latch) (s : State) : (outputsOfCommand i l s).ovr = s.ovr := by
  cases i <;> rfl

theorem busy_of_completesNow {s : State} (h : completesNow s = true) : s.fsm = .busy := by
  obtain ⟨-, -, busy, -⟩ := (turn_block_iff s).1 ((completesNow_iff s).1 h)
  exact busy

/-- Settles O45, by what a step can change. -/
theorem statusFlagsChangeOnlyAsStated : Obligations.StatusFlagsChangeOnlyAsStated := by
  intro s t h
  cases step_change h with
  | reset event regs =>
    obtain ⟨hovr, hdone, hfsm⟩ := flags_of_atReset regs
    simp [hovr, hdone, hfsm, event]
  | success i now => simp +contextual [now, busy_of_completesNow now]
  | failure m now => simp +contextual [now, busy_of_completesNow now]
  | ctrl v write => simp +contextual
  | acceptance v write idle =>
    exact ⟨by simp +contextual, by simp +contextual, by simp, fun _ _ => .inr (.inl ⟨idle, v, write⟩),
      fun _ _ => ⟨v, write, rfl, rfl⟩, by simp⟩
  | overrun v write busy =>
    exact ⟨fun _ _ => ⟨busy, v, write⟩, by simp, by simp +contextual, by simp +contextual, by simp +contextual,
      by simp +contextual⟩
  | status v write =>
    exact ⟨by simp +contextual, fun old new => .inr ⟨v, write, by simpa [old] using new⟩, by simp +contextual,
      fun old new => .inr (.inr ⟨v, write, by simpa [old] using new⟩), by simp +contextual, by simp +contextual⟩
  | operand r v write => simp +contextual
  | quiet low => simp +contextual

/-- Settles O46, by what a step can change. -/
theorem registersChangeOnlyByTheirWriters : Obligations.RegistersChangeOnlyByTheirWriters := by
  intro s t h noReset
  cases step_change h with
  | reset event => exact absurd event noReset
  | success i now decoded =>
    obtain ⟨ivIn, ivOut, quot, resid, e, hivIn, hivOut, hdiv, -⟩ := outputsOfCommand_cases i s.latch (tick s)
    have is_command {c : Instr} (hi : i = c) : decode s.latch.cmd = .ok c := by rw [decoded, hi]
    rw [e]
    exact ⟨by simp, by simp, by simp, by simp, by simp, fun h => .inr ⟨now, is_command (hivIn h)⟩,
      fun h => ⟨now, rfl, (hivOut h).imp is_command is_command⟩,
      fun h => ⟨now, rfl, (hdiv h).imp is_command is_command⟩, fun _ => now, by simp, by simp⟩
  | failure m now => simp [now]
  | ctrl v write => simpa using fun _ => ⟨v, write⟩
  | acceptance v write idle => simpa [idle] using fun _ => ⟨v, write⟩
  | overrun v write busy => simp
  | status v write => simp
  | operand r v write keylen ivlen neg ivIn blk off hkeylen hivlen hneg hivIn hblk hoff =>
    have word {k : Nat} {q : Fin k → Reg} (hr : ∃ j, r = q j) : ∃ j v, writesNow (q j) v s :=
      hr.elim fun j hj => ⟨j, v, hj ▸ write⟩
    exact ⟨fun h => ⟨v, hkeylen h ▸ write⟩, fun h => ⟨v, hivlen h ▸ write⟩, fun h => ⟨v, hneg h ▸ write⟩,
      fun h => word (hblk h), fun h => word (hoff h), fun h => .inl (word (hivIn h)), by simp, by simp, by simp, by simp,
      by simp⟩
  | quiet low => simp

/-! ### What a completion reads (R18, R40, R41) -/

theorem completeWith_zero (outputs : State → State) (s : State) : completeWith 0#4 outputs s = complete 0#4 (outputs s) :=
  rfl

theorem completeWith_error {m : BitVec 4} (hm : m ≠ 0#4) (outputs : State → State) (s : State) :
    completeWith m outputs s = complete m s := by
  simp [completeWith, hm]

/-- From one latch, two states get the same outputs from the commands that write them, and keep their own from the others. -/
theorem outputsOfCommand_agree (i : Instr) (l : Latch) (a b : State) :
    ((outputsOfCommand i l a).ivIn = (outputsOfCommand i l b).ivIn ∨
      ((outputsOfCommand i l a).ivIn = a.ivIn ∧ (outputsOfCommand i l b).ivIn = b.ivIn)) ∧
    ((outputsOfCommand i l a).ivOut = (outputsOfCommand i l b).ivOut ∨
      ((outputsOfCommand i l a).ivOut = a.ivOut ∧ (outputsOfCommand i l b).ivOut = b.ivOut)) ∧
    (((outputsOfCommand i l a).quot = (outputsOfCommand i l b).quot ∧
        (outputsOfCommand i l a).resid = (outputsOfCommand i l b).resid) ∨
      ((outputsOfCommand i l a).quot = a.quot ∧ (outputsOfCommand i l a).resid = a.resid ∧
        (outputsOfCommand i l b).quot = b.quot ∧ (outputsOfCommand i l b).resid = b.resid)) := by
  cases i <;> simp [outputsOfCommand]

/-- Settles O24: equal latches give equal masks; a success writes the latch's outputs, an error keeps the old ones. -/
theorem completionReadsOnlyTheLatch : Obligations.CompletionReadsOnlyTheLatch := by
  intro i s1 s2 hl
  refine ⟨_, _, exec_eq i s1, exec_eq i s2, ?_⟩
  rw [hl]
  by_cases hm : maskOfCommand i s2.latch = 0#4
  · rw [hm, completeWith_zero, completeWith_zero]
    exact ⟨rfl, rfl, outputsOfCommand_agree i s2.latch s1 s2⟩
  · rw [completeWith_error hm, completeWith_error hm]
    exact ⟨rfl, rfl, .inr ⟨rfl, rfl⟩, .inr ⟨rfl, rfl⟩, .inr ⟨rfl, rfl, rfl, rfl⟩⟩

/-- No check reads the latched IV_OUT. -/
theorem maskOfCommand_ivout (i : Instr) (l : Latch) (c : Counter) :
    maskOfCommand i { l with ivout := c } = maskOfCommand i l := by
  cases i <;> rfl

/-- No command but COPYBACK reads the latched IV_OUT. -/
theorem outputsOfCommand_ivout {i : Instr} (hi : i ≠ .copyback) (l : Latch) (c : Counter) (s : State) :
    outputsOfCommand i { l with ivout := c } s = outputsOfCommand i l s := by
  cases i with
  | copyback => exact absurd rfl hi
  | _ => rfl

/-- Operand registers that agree load latches that agree but for IV_OUT. -/
theorem latchOf_of_operands {a b : State} (w : Word) (hkeylen : a.keylen = b.keylen) (hivlen : a.ivlen = b.ivlen)
    (hneg : a.neg = b.neg) (hivIn : a.ivIn = b.ivIn) (hblk : a.blk = b.blk) (hoff : a.off = b.off) :
    latchOf w b = { latchOf w a with ivout := b.ivOut } := by
  simp [latchOf, hkeylen, hivlen, hneg, hivIn, hblk, hoff]

theorem outputsOfCommand_ivIn {i : Instr} (hi : i ≠ .copyback) (l : Latch) (s : State) :
    (outputsOfCommand i l s).ivIn = s.ivIn := by
  cases i with
  | copyback => exact absurd rfl hi
  | _ => rfl

/-- INCREMENT and POSITION write IV_OUT from the latch alone. -/
theorem outputsOfCommand_ivOut {i : Instr} (hi : i = .increment ∨ i = .position) (l : Latch) (a b : State) :
    (outputsOfCommand i l a).ivOut = (outputsOfCommand i l b).ivOut := by
  rcases hi with rfl | rfl <;> rfl

/-- DIVIDE and POSITION write QUOT and RESID from the latch alone. -/
theorem outputsOfCommand_quot_resid {i : Instr} (hi : i = .divide ∨ i = .position) (l : Latch) (a b : State) :
    (outputsOfCommand i l a).quot = (outputsOfCommand i l b).quot ∧
      (outputsOfCommand i l a).resid = (outputsOfCommand i l b).resid := by
  rcases hi with rfl | rfl <;> exact ⟨rfl, rfl⟩

/-- Settles O25: the two latches agree but for IV_OUT, which neither the checks nor the outputs read. -/
theorem commandsCarryNoResultOver : Obligations.CommandsCarryNoResultOver := by
  intro i w s1 s2 hi hkeylen hivlen hneg hivIn hblk hoff
  refine ⟨_, _, exec_eq i _, exec_eq i _, ?_⟩
  have hl := latchOf_of_operands w hkeylen hivlen hneg hivIn hblk hoff
  have mask : maskOfCommand i (latchOf w s2) = maskOfCommand i (latchOf w s1) := by
    rw [hl]
    exact maskOfCommand_ivout i (latchOf w s1) s2.ivOut
  have outputs (s : State) : outputsOfCommand i (latchOf w s2) s = outputsOfCommand i (latchOf w s1) s := by
    rw [hl]
    exact outputsOfCommand_ivout hi (latchOf w s1) s2.ivOut s
  rw [loadLatch_latch, loadLatch_latch, mask]
  by_cases hm : maskOfCommand i (latchOf w s1) = 0#4
  · rw [hm, completeWith_zero, completeWith_zero, outputs]
    refine ⟨rfl, rfl, ?_, fun _ h => outputsOfCommand_ivOut h _ _ _, fun _ h => outputsOfCommand_quot_resid h _ _ _⟩
    simp [outputsOfCommand_ivIn hi, hivIn]
  · rw [completeWith_error hm, completeWith_error hm]
    have failed : causeOf (maskOfCommand i (latchOf w s1)) ≠ 0#4 := mt (causeOf_eq_zero _).1 hm
    exact ⟨rfl, rfl, hivIn, fun h => absurd h failed, fun h => absurd h failed⟩

/-! ### What a read gives, as numbers (R21 to R36) -/

theorem word4_eq_ofNat (v : Counter) (j : Fin 4) : word4 v j = BitVec.ofNat 32 (v.toNat / 2 ^ (32 * (3 - j.val))) :=
  BitVec.eq_of_toNat_eq (by rw [word4_toNat, BitVec.toNat_ofNat])

theorem word5_eq_ofNat (v : Wide) (j : Fin 5) : word5 v j = BitVec.ofNat 32 (v.toNat / 2 ^ (32 * (4 - j.val))) :=
  BitVec.eq_of_toNat_eq (by rw [word5_toNat, BitVec.toNat_ofNat])

theorem ctrlWord_eq (s : State) : ctrlWord s = if s.ie then 2#32 else 0#32 := by
  unfold ctrlWord
  cases s.ie <;> rfl

theorem offsignWord_eq (s : State) : offsignWord s = if s.neg then 1#32 else 0#32 := by
  unfold offsignWord
  cases s.neg <;> rfl

theorem errWord_eq (s : State) : errWord s = BitVec.ofNat 32 (s.cause.toNat + 256 * s.mask.toNat) := by
  rw [← errWord_toNat, BitVec.ofNat_toNat, BitVec.setWidth_eq]

theorem busy_toNat (s : State) : s.busy.toNat = if s.fsm = .busy then 1 else 0 := by
  unfold State.busy
  cases s.fsm <;> rfl

theorem errFlag_toNat (s : State) : s.errFlag.toNat = if s.cause.toNat ≠ 0 then 1 else 0 := by
  unfold State.errFlag
  generalize s.cause = c
  revert c
  decide

/-- The four flags of STATUS, each at its bit. -/
theorem statusWord_eq (s : State) :
    statusWord s = BitVec.ofNat 32 ((if s.fsm = .busy then 1 else 0) + (if s.done then 2 else 0) +
      (if s.cause.toNat ≠ 0 then 4 else 0) + (if s.ovr then 8 else 0)) := by
  apply BitVec.eq_of_toNat_eq
  rw [statusWord_toNat, busy_toNat, errFlag_toNat, BitVec.toNat_ofNat, Nat.mod_eq_of_lt (by split_ifs <;> decide)]
  split_ifs <;> simp_all

/-- Settles O33: each offset names its register, and each register reads as its word. -/
theorem registerMapReads : Obligations.RegisterMapReads := by
  intro s
  have read (r : Reg) {v : Word} (h : readReg r s = v) : readAnswer (regOffset r) 4 s = (.ok, v) := by
    rw [readAnswer_regOffset, h]
  exact ⟨read .id rfl, read .ctrl (ctrlWord_eq s), read .cmd rfl, read .status (statusWord_eq s), read .err (errWord_eq s),
    read .keylen rfl, read .ivlen rfl, read .offsign (offsignWord_eq s),
    fun j hj => read (.ivIn ⟨j, hj⟩) (word4_eq_ofNat s.ivIn ⟨j, hj⟩),
    fun j hj => read (.blk ⟨j, hj⟩) (word4_eq_ofNat s.blk ⟨j, hj⟩),
    fun j hj => read (.off ⟨j, hj⟩) (word5_eq_ofNat s.off ⟨j, hj⟩),
    fun j hj => read (.ivOut ⟨j, hj⟩) (word4_eq_ofNat s.ivOut ⟨j, hj⟩),
    fun j hj => read (.quot ⟨j, hj⟩) (word5_eq_ofNat s.quot ⟨j, hj⟩),
    read .resid (BitVec.ofNat_toNat 32 s.resid).symm⟩

/-! ### The order of words and bytes (R20) -/

theorem beValue_append (bs cs : List Byte) : beValue (bs ++ cs) = beValue bs * 2 ^ (8 * cs.length) + beValue cs := by
  induction bs with
  | nil => simp [beValue]
  | cons b bs ih =>
    simp only [List.cons_append, beValue, ih, List.length_append, Nat.mul_add, Nat.pow_add]
    ring

/-- The four bytes of a word are its big-endian string. -/
theorem beValue_wordBytes (w : Word) : beValue (wordBytes w) = w.toNat := by
  have := w.isLt
  simp only [wordBytes, beValue, List.length_cons, List.length_nil, BitVec.extractLsb'_toNat, Nat.shiftRight_eq_div_pow]
  omega

theorem counterBytes_length (v : Counter) : (counterBytes v).length = 16 := rfl

theorem beValue_counterBytes (v : Counter) : beValue (counterBytes v) = v.toNat := by
  simp only [counterBytes, beValue_append, beValue_wordBytes]
  exact (join4_toNat _ _ _ _).symm.trans (congrArg BitVec.toNat (join4_word4 v))

theorem counterBytes_eq_bytesBE (v : Counter) : counterBytes v = bytesBE 16 v.toNat := by
  apply beValue_injective
  · rw [counterBytes_length, bytesBE_length]
  · rw [beValue_counterBytes, beValue_bytesBE, Nat.mod_eq_of_lt v.isLt]

/-- Once every word is written, nothing of the old value is left. -/
theorem setWord4_all (v : Counter) (w0 w1 w2 w3 : Word) :
    setWord4 (setWord4 (setWord4 (setWord4 v 0 w0) 1 w1) 2 w2) 3 w3 = join4 w0 w1 w2 w3 := by
  rw [setWord4]
  simp [pickWord]

theorem setWord5_all (v : Wide) (w0 w1 w2 w3 w4 : Word) :
    setWord5 (setWord5 (setWord5 (setWord5 (setWord5 v 0 w0) 1 w1) 2 w2) 3 w3) 4 w4 = join5 w0 w1 w2 w3 w4 := by
  rw [setWord5]
  simp [pickWord]

theorem busWrite_ivIn (j : Fin 4) (w : Word) (s : State) :
    (busWrite (regOffset (.ivIn j)) 4 w s).ivIn = setWord4 s.ivIn j w := by
  rw [busWrite_regOffset, writeReg, setReply_ivIn]

theorem busWrite_blk (j : Fin 4) (w : Word) (s : State) :
    (busWrite (regOffset (.blk j)) 4 w s).blk = setWord4 s.blk j w := by
  rw [busWrite_regOffset, writeReg, setReply_blk]

theorem busWrite_off (j : Fin 5) (w : Word) (s : State) :
    (busWrite (regOffset (.off j)) 4 w s).off = setWord5 s.off j w := by
  rw [busWrite_regOffset, writeReg, setReply_off]

theorem busWrite_ivIn_all (s : State) (w0 w1 w2 w3 : Word) :
    (busWrite (regOffset (.ivIn 3)) 4 w3 (busWrite (regOffset (.ivIn 2)) 4 w2 (busWrite (regOffset (.ivIn 1)) 4 w1
      (busWrite (regOffset (.ivIn 0)) 4 w0 s)))).ivIn = join4 w0 w1 w2 w3 := by
  rw [busWrite_ivIn, busWrite_ivIn, busWrite_ivIn, busWrite_ivIn, setWord4_all]

theorem busWrite_blk_all (s : State) (w0 w1 w2 w3 : Word) :
    (busWrite (regOffset (.blk 3)) 4 w3 (busWrite (regOffset (.blk 2)) 4 w2 (busWrite (regOffset (.blk 1)) 4 w1
      (busWrite (regOffset (.blk 0)) 4 w0 s)))).blk = join4 w0 w1 w2 w3 := by
  rw [busWrite_blk, busWrite_blk, busWrite_blk, busWrite_blk, setWord4_all]

theorem busWrite_off_all (s : State) (w0 w1 w2 w3 w4 : Word) :
    (busWrite (regOffset (.off 4)) 4 w4 (busWrite (regOffset (.off 3)) 4 w3 (busWrite (regOffset (.off 2)) 4 w2
      (busWrite (regOffset (.off 1)) 4 w1 (busWrite (regOffset (.off 0)) 4 w0 s))))).off = join5 w0 w1 w2 w3 w4 := by
  rw [busWrite_off, busWrite_off, busWrite_off, busWrite_off, busWrite_off, setWord5_all]

/-- Settles O39, from the words' values, the bytes' values and the writes of one word each. -/
theorem wideValuesAreMostSignificantFirst : Obligations.WideValuesAreMostSignificantFirst :=
  ⟨fun v => (join4_word4 v).symm, fun v => (join5_word5 v).symm, word4_toNat, word5_toNat, counterBytes_eq_bytesBE,
    fun s w0 w1 w2 w3 => ⟨busWrite_ivIn_all s w0 w1 w2 w3, busWrite_blk_all s w0 w1 w2 w3⟩, busWrite_off_all,
    fun s j => readAnswer_regOffset (.ivOut j) s, fun s j => readAnswer_regOffset (.quot j) s⟩

/-! ### The sign of the offset (R37, R78) -/

theorem offsetValue_eq (neg : Bool) (off : Wide) :
    offsetValue neg off = if neg = true ∧ off.toNat ≠ 0 then -(off.toNat : Int) else off.toNat := by
  simp [offsetValue, BitVec.toNat_eq]

theorem offsetNegative_iff (neg : Bool) (off : Wide) : offsetNegative neg off = true ↔ neg = true ∧ off.toNat ≠ 0 := by
  simp [offsetNegative, BitVec.toNat_eq]

/-- Settles O18: both the check and the sign ask for NEG and a magnitude that is not 0. -/
theorem offsetCheckIsTheSign : Obligations.OffsetCheckIsTheSign := by
  refine fun neg off => ⟨offsetValue_eq neg off, ?_, rfl⟩
  rw [offsetNegative_iff, offsetValue_eq]
  split_ifs with h
  · have ⟨_, magnitude⟩ := h
    exact iff_of_true h (by omega)
  · exact iff_of_false h (by omega)

/-! ### The writes to CTRL, and the reset (R24, R44, R130) -/

theorem busWrite_ctrl_srst {v : Word} (s : State) (hv : v.getLsbD 0 = true) :
    busWrite (regOffset .ctrl) 4 v s = setReply (.write .ok) (applyReset s) := by
  rw [busWrite_regOffset, writeReg, writeCtrl, if_pos hv]

theorem busWrite_ctrl_ie {v : Word} (s : State) (hv : v.getLsbD 0 = false) :
    busWrite (regOffset .ctrl) 4 v s = { s with ie := v.getLsbD 1, reply := some (.write .ok) } := by
  rw [busWrite_regOffset, writeReg, writeCtrl, hv]
  rfl

/-- Settles O38: the two cases of bit 0, and the word CTRL reads as. -/
theorem ctrlWriteSetsIeOrResets : Obligations.CtrlWriteSetsIeOrResets :=
  ⟨fun s _ hv => busWrite_ctrl_ie s hv, fun s _ hv => ⟨_, _, busWrite_ctrl_srst s hv⟩,
    fun s => by rw [← ctrlWord_eq]; exact readAnswer_regOffset .ctrl s⟩

/-- Settles O40: the pin's step to a high level, the write to CTRL with bit 0 set, and the state after reset. -/
theorem resetLeavesTheResetState : Obligations.ResetLeavesTheResetState := by
  refine ⟨fun s rest ht => ?_, fun s v hv => ?_, atReset_reset, irq_of_atReset atReset_reset, rfl⟩
  · have regs := atReset_pinStep_high rest s
    exact ⟨_, step_of_pinDue ((turn_pin_iff s true rest).1 ht), regs, pinStep_rst _ _ _, irq_of_atReset regs, rfl,
      pinStep_pins _ _ _, pinStep_inputs _ _ _, pinStep_sameHost true rest s⟩
  · intro t
    have e : t = setReply (.write .ok) (applyReset s) := busWrite_ctrl_srst s hv
    have regs : AtReset t := e ▸ atReset_applyReset s
    exact ⟨regs, irq_of_atReset regs, rfl, by rw [e]; exact ⟨rfl, rfl, rfl⟩⟩

end Sys2Proof.Machine

namespace Sys2Proof.Machine

/-! ### Accesses the port does not take (R56, R118) -/

theorem accessOk_eq_false_iff (a : WindowOffset) (n : Nat) : accessOk a n = false ↔ n ≠ 4 ∨ a.toNat % 4 ≠ 0 := by
  rw [← Bool.not_eq_true, accessOk_iff, not_and_or]

theorem busRead_of_not_accessOk {a : WindowOffset} {n : Nat} (s : State) (h : accessOk a n = false) :
    busRead a n s = { s with reply := some (.read .error 0#32), hostFault := true } := by
  simp [busRead, readAnswer, h]

theorem busWrite_of_not_accessOk {a : WindowOffset} {n : Nat} (v : Word) (s : State) (h : accessOk a n = false) :
    busWrite a n v s = { s with reply := some (.write .error), hostFault := true } := by
  simp [busWrite, h, setReply, recordHostFault]

theorem exec_hostFault {i : Instr} {s t : State} (h : exec i s = .next t) : t.hostFault = s.hostFault := by
  have outputs : (outputsOfCommand i s.latch s).hostFault = s.hostFault := by cases i <;> rfl
  rcases exec_cases h with ⟨-, rfl⟩ | ⟨-, rfl⟩
  · rw [complete_hostFault, outputs]
  · rw [complete_hostFault]

theorem blockStep_hostFault {s t : State} (h : blockStep s = .next t) : t.hostFault = s.hostFault := by
  rcases blockStep_cases s with ⟨i, -, e⟩ | ⟨_, -, e⟩
  · exact exec_hostFault (e.symm.trans h)
  · cases e.symm.trans h
    exact complete_hostFault 8#4 s

@[simp] theorem passStep_hostFault (s : State) : (passStep s).hostFault = s.hostFault := by
  obtain ⟨-, kept, -⟩ := passStep_sameHost s
  exact kept

@[simp] theorem pinStep_hostFault (level : Bool) (rest : List PinChange) (s : State) :
    (pinStep level rest s).hostFault = s.hostFault := by
  obtain ⟨-, kept, -⟩ := pinStep_sameHost level rest s
  exact kept

/-- A recorded fault lets the host make no further access, and no other agent's step clears it (R118). -/
theorem step_hostFault {s t : State} (h : step s = .next t) (fault : s.hostFault = true) : t.hostFault = true := by
  rcases step_cases h with ⟨-, hb⟩ | ⟨_, _, -, -, clean, -⟩ | ⟨_, _, -, -, -, -, rfl⟩ | ⟨level, rest, -, rfl⟩ | ⟨-, rfl⟩
  · rw [blockStep_hostFault hb, tick_hostFault, fault]
  · exact absurd fault (by simp [clean])
  · rw [passStep_hostFault, tick_hostFault, fault]
  · rw [pinStep_hostFault, fault]
  · rw [passStep_hostFault, tick_hostFault, fault]

/-- Settles O30: what the port does with such an access, and what a step does with the recorded fault. -/
theorem badAccessIsAHostFault : Obligations.BadAccessIsAHostFault := by
  refine ⟨fun s a n v bad => ?_, fun s t => step_hostFault⟩
  have refused := (accessOk_eq_false_iff a n).2 bad
  exact ⟨busRead_of_not_accessOk s refused, busWrite_of_not_accessOk v s refused⟩

/-! ### Reads (R50, R58) and reserved offsets (R55) -/

theorem busRead_regOffset (r : Reg) (s : State) :
    busRead (regOffset r) 4 s = { s with reply := some (.read .ok (readReg r s)) } := by
  simp [busRead]

theorem regAt_eq_none {a : WindowOffset} (h : ∀ r : Reg, a ≠ regOffset r) : regAt a = none := by
  cases hr : regAt a with
  | none => rfl
  | some r => exact absurd (regOffset_of_regAt hr) (h r)

theorem busRead_of_regAt_none {a : WindowOffset} (s : State) (aligned : a.toNat % 4 = 0) (noReg : regAt a = none) :
    busRead a 4 s = { s with reply := some (.read .ok 0#32) } := by
  have ok : accessOk a 4 = true := (accessOk_iff a 4).2 ⟨rfl, aligned⟩
  simp [busRead, readAnswer, ok, noReg]

theorem busWrite_of_regAt_none {a : WindowOffset} (v : Word) (s : State) (aligned : a.toNat % 4 = 0)
    (noReg : regAt a = none) : busWrite a 4 v s = { s with reply := some (.write .ok) } := by
  have ok : accessOk a 4 = true := (accessOk_iff a 4).2 ⟨rfl, aligned⟩
  simp [busWrite, ok, noReg, setReply]

/-- Settles O32: the three answers of a read. -/
theorem readsAnswerAndChangeNothing : Obligations.ReadsAnswerAndChangeNothing := by
  refine fun s a n => ⟨fun bad => ?_, fun r ha hn => ?_, fun hn aligned noReg => ?_⟩
  · exact busRead_of_not_accessOk s ((accessOk_eq_false_iff a n).2 bad)
  · rw [ha, hn, busRead_regOffset]
  · rw [hn, busRead_of_regAt_none s aligned (regAt_eq_none noReg)]

/-- R55's list of reserved offsets names no register. -/
theorem regAt_reserved {a : WindowOffset}
    (h : a = 0x54#8 ∨ a = 0x58#8 ∨ a = 0x5C#8 ∨ (0x88 ≤ a.toNat ∧ a.toNat % 4 = 0)) :
    a.toNat % 4 = 0 ∧ regAt a = none := by
  revert a
  decide

/-- Settles O34: a reserved offset is aligned and names no register. -/
theorem reservedOffsetsReadZero : Obligations.ReservedOffsetsReadZero := by
  intro s a v reserved
  obtain ⟨aligned, noReg⟩ := regAt_reserved reserved
  exact ⟨busRead_of_regAt_none s aligned noReg, busWrite_of_regAt_none v s aligned noReg⟩

/-! ### Writes to STATUS and to the read-only registers (R53, R54) -/

theorem writeReg_readOnly {r : Reg} (h : r = .id ∨ r = .err ∨ (∃ j, r = .ivOut j) ∨ (∃ j, r = .quot j) ∨ r = .resid)
    (v : Word) (s : State) : writeReg r v s = s := by
  rcases h with rfl | rfl | ⟨j, rfl⟩ | ⟨j, rfl⟩ | rfl <;> rfl

theorem writeStatus_eq (v : Word) (s : State) : writeStatus v s = { s with
    done := if v.getLsbD 1 then false else s.done
    ovr := if v.getLsbD 3 then false else s.ovr } := by
  unfold writeStatus
  cases v.getLsbD 1 <;> cases v.getLsbD 3 <;> simp

theorem busWrite_status (v : Word) (s : State) :
    busWrite 0x0C#8 4 v s = setReply (.write .ok) (writeStatus v s) :=
  busWrite_regOffset .status v s

theorem statusWord_bit0 (s : State) : (statusWord s).getLsbD 0 = s.busy := by
  rw [statusWord, BitVec.getLsbD_append]
  simp

theorem statusWord_bit2 (s : State) : (statusWord s).getLsbD 2 = s.errFlag := by
  simp only [statusWord, BitVec.getLsbD_append]
  simp

theorem ctrlWord_bit0 (s : State) : (ctrlWord s).getLsbD 0 = false := by
  rw [ctrlWord, BitVec.getLsbD_append]
  simp

/-- Settles O37, by what the write effect does to the two flags. -/
theorem statusIsWriteOneToClear : Obligations.StatusIsWriteOneToClear := by
  intro s v
  rw [busWrite_status, writeStatus_eq, setReply]

/-- Settles O35: a read-only register's write effect is nothing, and STATUS's reaches neither FSM nor CAUSE. -/
theorem readOnlyRegistersIgnoreWrites : Obligations.ReadOnlyRegistersIgnoreWrites := by
  refine ⟨fun s r v readOnly => ?_, fun s v => ?_, fun s => ⟨readAnswer_regOffset .cmd s, ctrlWord_bit0 s⟩⟩
  · rw [busWrite_regOffset, writeReg_readOnly readOnly, setReply]
  · rw [busWrite_status]
    refine ⟨rfl, rfl, rfl, ?_, ?_⟩
    · exact (statusWord_bit0 _).trans (statusWord_bit0 s).symm
    · exact (statusWord_bit2 _).trans (statusWord_bit2 s).symm

/-! ### Writes to the operand registers (R52) -/

/-- The operand registers: what acceptance loads into the latch from the host's side (R40). -/
def OperandReg (r : Reg) : Prop :=
  r = .keylen ∨ r = .ivlen ∨ r = .offsign ∨ (∃ j, r = .ivIn j) ∨ (∃ j, r = .blk j) ∨ (∃ j, r = .off j)

/-- NEG takes bit 0 of the word, and OFFSIGN reads it back with its reserved bits 0. -/
theorem offsignWord_of_bit0 {v : Word} {s : State} (h : s.neg = v.getLsbD 0) :
    offsignWord s = BitVec.ofNat 32 (v.toNat % 2) := by
  apply BitVec.eq_of_toNat_eq
  rw [offsignWord_toNat, h, BitVec.toNat_ofNat, BitVec.getLsbD, Nat.testBit_zero]
  rcases Nat.mod_two_eq_zero_or_one v.toNat with e | e <;> simp [e]

theorem readReg_writeReg_self {r : Reg} (hr : OperandReg r) (v : Word) (s : State) :
    readReg r (writeReg r v s) = if r = .offsign then BitVec.ofNat 32 (v.toNat % 2) else v := by
  rcases hr with rfl | rfl | rfl | ⟨j, rfl⟩ | ⟨j, rfl⟩ | ⟨j, rfl⟩
  · rfl
  · rfl
  · exact offsignWord_of_bit0 rfl
  · exact (word4_setWord4 s.ivIn j j v).trans (if_pos rfl)
  · exact (word4_setWord4 s.blk j j v).trans (if_pos rfl)
  · exact (word5_setWord5 s.off j j v).trans (if_pos rfl)

/-- A write of one operand word leaves the other words of its value, and every other register, as they were. -/
theorem readReg_writeReg_of_ne {q r : Reg} (hr : OperandReg r) (hq : q ≠ r) (v : Word) (s : State) :
    readReg q (writeReg r v s) = readReg q s := by
  rcases hr with rfl | rfl | rfl | ⟨j, rfl⟩ | ⟨j, rfl⟩ | ⟨j, rfl⟩
  · cases q with
    | keylen => exact absurd rfl hq
    | _ => rfl
  · cases q with
    | ivlen => exact absurd rfl hq
    | _ => rfl
  · cases q with
    | offsign => exact absurd rfl hq
    | _ => rfl
  · cases q with
    | ivIn k => exact (word4_setWord4 s.ivIn j k v).trans (if_neg fun e => hq (congrArg Reg.ivIn e))
    | _ => rfl
  · cases q with
    | blk k => exact (word4_setWord4 s.blk j k v).trans (if_neg fun e => hq (congrArg Reg.blk e))
    | _ => rfl
  · cases q with
    | off k => exact (word5_setWord5 s.off j k v).trans (if_neg fun e => hq (congrArg Reg.off e))
    | _ => rfl

/-- A write to an operand register reaches neither the command in flight (R40) nor the host's side. -/
theorem writeReg_operand_frame {r : Reg} (hr : OperandReg r) (v : Word) (s : State) :
    (writeReg r v s).latch = s.latch ∧ (writeReg r v s).fsm = s.fsm ∧ (writeReg r v s).due = s.due ∧
    (writeReg r v s).hostFault = s.hostFault := by
  rcases hr with rfl | rfl | rfl | ⟨j, rfl⟩ | ⟨j, rfl⟩ | ⟨j, rfl⟩ <;> exact ⟨rfl, rfl, rfl, rfl⟩

@[simp] theorem word4_zero (j : Fin 4) : word4 0#128 j = 0#32 := by
  simp [word4]

@[simp] theorem word5_zero (j : Fin 5) : word5 0#160 j = 0#32 := by
  simp [word5]

theorem readReg_operand_of_atReset {r : Reg} {s : State} (hr : OperandReg r) (h : AtReset s) : readReg r s = 0#32 := by
  obtain ⟨-, -, -, -, -, -, hkeylen, hivlen, hneg, hivIn, hblk, hoff, -⟩ := h
  rcases hr with rfl | rfl | rfl | ⟨j, rfl⟩ | ⟨j, rfl⟩ | ⟨j, rfl⟩ <;>
    simp [readReg, offsignWord_eq, hkeylen, hivlen, hneg, hivIn, hblk, hoff]

/-- Settles O36: reading after writing, for the register itself and for every other, and the write's frame. -/
theorem operandRegistersReadBack : Obligations.OperandRegistersReadBack := by
  intro s r v hr
  obtain ⟨latch, fsm, due, hostFault⟩ := writeReg_operand_frame hr v s
  simp only [busWrite_regOffset, readAnswer_regOffset, readReg_reply]
  exact ⟨by rw [readReg_writeReg_self hr], fun q hq => by rw [readReg_writeReg_of_ne hr hq], latch, fsm, due, rfl,
    hostFault, by rw [readReg_operand_of_atReset hr atReset_reset]⟩

/-! ### Windows of a platform (R9, R48, R126) -/

theorem inWindow_iff (base addr : Nat) : inWindow base addr = true ↔ base ≤ addr ∧ addr < base + 256 := by
  simp [inWindow]

theorem windowsApart_iff (b c : Nat) : windowsApart b c = true ↔ b + 256 ≤ c ∨ c + 256 ≤ b := by
  simp [windowsApart]

theorem platformWf_iff (p : List Placed) : platformWf p = true ↔
    p ≠ [] ∧ (∀ i ∈ p, i.base % 256 = 0) ∧ p.Pairwise fun i j => windowsApart i.base j.base = true := by
  simp [platformWf, and_assoc]

/-- In a window at an aligned base, the port's offset is the low byte of the address (R42, R48). -/
theorem portOffset_of_aligned {base addr : Nat} (aligned : base % 256 = 0) (h : inWindow base addr = true) :
    portOffset base addr = BitVec.ofNat 8 (addr % 256) := by
  have ⟨lower, upper⟩ := (inWindow_iff base addr).1 h
  rw [portOffset, show addr - base = addr % 256 by omega]

/-- No address lies in two windows of the platform. -/
theorem not_inWindow_of_ne {p : List Placed} {j k : Nat} {a b : Placed} {addr : Nat} (wf : platformWf p = true)
    (hj : p[j]? = some a) (hk : p[k]? = some b) (ne : j ≠ k) (h : inWindow b.base addr = true) :
    inWindow a.base addr = false := by
  obtain ⟨-, -, apart⟩ := (platformWf_iff p).1 wf
  obtain ⟨jlt, rfl⟩ := List.getElem?_eq_some_iff.1 hj
  obtain ⟨klt, rfl⟩ := List.getElem?_eq_some_iff.1 hk
  simp only [List.pairwise_iff_getElem, windowsApart_iff] at apart
  rw [inWindow_iff] at h
  rw [← Bool.not_eq_true, inWindow_iff]
  rcases Nat.lt_or_gt_of_ne ne with lt | lt
  · have := apart j k jlt klt lt
    omega
  · have := apart k j klt jlt lt
    omega

/-- What reads and writes of a bus address have in common: the access arrives at every window that holds the address. -/
def route (addr : Nat) (access : WindowOffset → BusOp) (p : List Placed) : List Placed :=
  p.map fun i => if inWindow i.base addr then { i with core := arrive (access (portOffset i.base addr)) i.core } else i

theorem routeRead_eq (addr n x : Nat) (p : List Placed) : routeRead addr n x p = route addr (fun a => .read a n x) p :=
  rfl

theorem routeWrite_eq (addr n : Nat) (v : Word) (p : List Placed) :
    routeWrite addr n v p = route addr (fun a => .write a n v) p :=
  rfl

/-- The access arrives at the one window that holds the address, with the low byte of the address, and nowhere else. -/
theorem route_reaches_one {p : List Placed} {k : Nat} {i : Placed} {addr : Nat} (access : WindowOffset → BusOp)
    (wf : platformWf p = true) (hk : p[k]? = some i) (h : inWindow i.base addr = true) :
    (∀ j, j ≠ k → (route addr access p)[j]? = p[j]?) ∧
    (route addr access p)[k]? = some { i with core := arrive (access (BitVec.ofNat 8 (addr % 256))) i.core } := by
  simp only [route, List.getElem?_map]
  constructor
  · intro j ne
    cases hj : p[j]? with
    | none => rfl
    | some a => simp [not_inWindow_of_ne wf hj hk ne h]
  · obtain ⟨-, aligned, -⟩ := (platformWf_iff p).1 wf
    have offset := portOffset_of_aligned (aligned i (List.mem_of_getElem? hk)) h
    rw [hk, Option.map_some, if_pos h, offset]

/-- Settles O55: a read and a write are routed alike, and only one window holds the address. -/
theorem busAddressReachesOneInstance : Obligations.BusAddressReachesOneInstance := by
  intro p k i addr n wf hk lower upper
  have inside : inWindow i.base addr = true := (inWindow_iff _ _).2 ⟨lower, upper⟩
  refine ⟨fun v => ?_, fun x => ?_⟩
  · rw [routeWrite_eq]
    exact route_reaches_one _ wf hk inside
  · rw [routeRead_eq]
    exact route_reaches_one _ wf hk inside

end Sys2Proof.Machine

namespace Sys2Proof.Machine

/-! ### The decoder on all words (R64 to R67) -/

theorem rsvField_eq_zero_iff (w : Word) : rsvField w = 0#28 ↔ w.toNat / 16 = 0 := by
  rw [← BitVec.toNat_inj, rsvField, BitVec.extractLsb'_toNat, Nat.shiftRight_eq_div_pow, BitVec.toNat_ofNat]
  omega

theorem opcField_toNat (w : Word) : (opcField w).toNat = w.toNat % 16 := by
  simp [opcField]

theorem opcOf_lt (i : Instr) : (opcOf i).toNat < 6 := by
  cases i <;> decide

theorem encode_toNat (i : Instr) : (encode i).toNat = (opcOf i).toNat := by
  cases i <;> rfl

theorem encodingRow : ∀ i : Instr, Laws.EncodingRow.Statement i
  | .nop => Laws.EncodingRow.nop
  | .validate => Laws.EncodingRow.validate
  | .divide => Laws.EncodingRow.divide
  | .increment => Laws.EncodingRow.increment
  | .position => Laws.EncodingRow.position
  | .copyback => Laws.EncodingRow.copyback

theorem decode_encode (i : Instr) : decode (encode i) = .ok i := by
  obtain ⟨-, -, -, decoded⟩ := encodingRow i
  exact decoded

/-- The opcode map of R65: an opcode is that of a command, or lies above them all. -/
theorem decodeOpc_cases (opc : BitVec 4) :
    (∃ i, opc = opcOf i ∧ decodeOpc opc = .ok i) ∨ (6 ≤ opc.toNat ∧ decodeOpc opc = .error .unassignedOpcode) := by
  unfold decodeOpc
  split
  case h_7 =>
    refine .inr ⟨?_, rfl⟩
    simp only [imp_false] at *
    omega
  all_goals exact .inl ⟨_, BitVec.eq_of_toNat_eq ‹_›, rfl⟩

/-- Everything a word can decode to: the command it encodes, or the rejection its fields give. -/
theorem decode_cases (w : Word) :
    (∃ i, w = encode i ∧ decode w = .ok i) ∨
    (w.toNat / 16 ≠ 0 ∧ decode w = .error .reservedBits) ∨
    (6 ≤ w.toNat % 16 ∧ decode w = .error .unassignedOpcode) := by
  by_cases rsv : rsvField w = 0#28
  · have mapped : decode w = decodeOpc (opcField w) := if_pos rsv
    have value := opcField_toNat w
    rw [mapped]
    rcases decodeOpc_cases (opcField w) with ⟨i, hopc, e⟩ | ⟨unassigned, e⟩
    · rw [hopc, ← encode_toNat] at value
      have high := (rsvField_eq_zero_iff w).1 rsv
      exact .inl ⟨i, BitVec.eq_of_toNat_eq (by omega), e⟩
    · exact .inr (.inr ⟨value ▸ unassigned, e⟩)
  · exact .inr (.inl ⟨fun h => rsv ((rsvField_eq_zero_iff w).2 h), if_neg rsv⟩)

theorem decode_eq_ok_iff (w : Word) (i : Instr) : decode w = .ok i ↔ w = encode i := by
  refine ⟨fun h => ?_, fun h => h ▸ decode_encode i⟩
  rcases decode_cases w with ⟨j, hw, e⟩ | ⟨-, e⟩ | ⟨-, e⟩ <;> rw [e] at h <;> cases h
  exact hw

/-- Some command decodes from a word exactly when the word is one of the table's six. -/
theorem exists_decode_ok_iff (w : Word) :
    (∃ i, decode w = .ok i) ↔ w ∈ [0#32, 1#32, 2#32, 3#32, 4#32, 5#32] := by
  simp only [decode_eq_ok_iff]
  constructor
  · rintro ⟨i, rfl⟩
    cases i <;> decide
  · intro h
    fin_cases h
    exacts [⟨.nop, rfl⟩, ⟨.validate, rfl⟩, ⟨.divide, rfl⟩, ⟨.increment, rfl⟩, ⟨.position, rfl⟩, ⟨.copyback, rfl⟩]

theorem exists_decode_error_iff (w : Word) :
    (∃ e, decode w = .error e) ↔ (w.toNat / 16 ≠ 0 ∨ 6 ≤ w.toNat % 16) := by
  rcases decode_cases w with ⟨i, hw, e⟩ | ⟨reserved, e⟩ | ⟨unassigned, e⟩
  · have small := opcOf_lt i
    rw [← encode_toNat, ← hw] at small
    simp only [e, reduceCtorEq, exists_false, false_iff]
    omega
  · simp [e, reserved]
  · simp [e, unassigned]

/-- Settles O2: a word is the encoding of a command, or a field of it rejects it, and the six encodings pass both fields. -/
theorem decodeAcceptsExactlySixWords : Obligations.DecodeAcceptsExactlySixWords :=
  ⟨fun i _ => decode_encode i, fun w i => (decode_eq_ok_iff w i).1, rfl, rfl, rfl, rfl, rfl, rfl,
    exists_decode_ok_iff, exists_decode_error_iff⟩

/-! ### Everything a completion leaves unchanged (R69, R106) -/

/-- A command's completion: ERR, DONE and FSM, and each output only by the commands that own it. -/
theorem exec_eq_complete (i : Instr) (s : State) :
    ∃ m ivIn ivOut quot resid,
      exec i s = .next (complete m { s with ivIn := ivIn, ivOut := ivOut, quot := quot, resid := resid }) ∧
      (ivIn ≠ s.ivIn → i = .copyback) ∧ (ivOut ≠ s.ivOut → i = .increment ∨ i = .position) ∧
      (quot ≠ s.quot ∨ resid ≠ s.resid → i = .divide ∨ i = .position) := by
  rw [exec_eq]
  rcases completeWith_cases (maskOfCommand i s.latch) (outputsOfCommand i s.latch) s with ⟨-, e⟩ | ⟨-, e⟩ <;> rw [e]
  · obtain ⟨ivIn, ivOut, quot, resid, outputs, hivIn, hivOut, hquot, -⟩ := outputsOfCommand_cases i s.latch s
    exact ⟨0#4, ivIn, ivOut, quot, resid, by rw [outputs], hivIn, hivOut, hquot⟩
  · exact ⟨_, s.ivIn, s.ivOut, s.quot, s.resid, rfl, by simp, by simp, by simp⟩

/-- Settles O27: the shape of every completion, its owners read contrapositively. -/
theorem completionFrame : Obligations.CompletionFrame := by
  intro i s
  obtain ⟨m, ivIn, ivOut, quot, resid, e, hivIn, hivOut, hquot⟩ := exec_eq_complete i s
  refine ⟨_, e, rfl, rfl, rfl, rfl, rfl, rfl, rfl, rfl, rfl, rfl, rfl, rfl, rfl, rfl, rfl, rfl, rfl, ?_, ?_, ?_⟩
  · exact fun other => not_not.1 fun changed => other (hivIn changed)
  · exact fun inc pos => not_not.1 fun changed => (hivOut changed).elim inc pos
  · intro div pos
    have kept : ¬(quot ≠ s.quot ∨ resid ≠ s.resid) := fun changed => (hquot changed).elim div pos
    simpa [not_or] using kept

/-- The block's step ends the flight, whatever word the latch holds, and leaves the pin, the port and the host's side. -/
theorem blockStep_completes (s : State) :
    ∃ t, blockStep s = .next t ∧ t.fsm = .idle ∧ t.done = true ∧ t.rst = s.rst ∧ t.hostFault = s.hostFault ∧
      t.pins = s.pins ∧ t.inputs = s.inputs := by
  rcases blockStep_cases s with ⟨i, -, e⟩ | ⟨_, -, e⟩
  · obtain ⟨_, _, _, _, _, completion, -⟩ := exec_eq_complete i s
    exact ⟨_, e.trans completion, rfl, rfl, rfl, rfl, rfl, rfl⟩
  · exact ⟨_, e, rfl, rfl, rfl, rfl, rfl, rfl⟩

/-! ### WAIT (R73, R74) -/

theorem statusWord_and_one (s : State) : statusWord s &&& 1#32 = if s.busy then 1#32 else 0#32 := by
  apply BitVec.eq_of_toNat_eq
  rw [BitVec.toNat_and, statusWord_toNat, BitVec.toNat_ofNat, Nat.one_mod_eq_one.2 (by decide), Nat.and_one_is_mod]
  cases s.busy <;> simp <;> omega

/-- The host stands at a WAIT, with nothing to keep it from going on but BUSY. -/
structure AtWait (rest : List BusOp) (s : State) : Prop where
  low : s.rst = false
  clean : s.hostFault = false
  noPins : s.pins = []
  head : s.inputs = pollOp .status 1#32 0#32 :: rest

theorem AtWait.turn_of_not_due {rest : List BusOp} {s : State} (h : AtWait rest s)
    (notDue : ¬(s.fsm = .busy ∧ s.due = 0)) : turn s = .host (pollOp .status 1#32 0#32) rest := by
  rw [turn_of_no_pins h.noPins, turnAtPort_of_not_block (fun due => notDue due.2), h.head]

/-- While the command is in flight WAIT reads BUSY = 1, and the delay gets shorter by one. -/
theorem AtWait.step_busy {rest : List BusOp} {s : State} (h : AtWait rest s) (busy : s.fsm = .busy) (later : s.due ≠ 0) :
    ∃ t, step s = .next t ∧ AtWait rest t ∧ t.fsm = .busy ∧ t.due = s.due - 1 := by
  have ht := h.turn_of_not_due (fun due => later due.2)
  have unmet : (readAnswer (regOffset .status) 4 s).2 &&& 1#32 ≠ 0#32 := by
    simp [readReg, statusWord_and_one, State.busy, busy]
  refine ⟨_, step_of_unmet_poll h.low h.clean ht (by decide) unmet, ?_⟩
  rw [passStep_tick_low h.low, busRead_regOffset]
  exact ⟨⟨h.low, h.clean, by simp [h.noPins, tickPins], h.head⟩, busy, rfl⟩

/-- When the delay is over the command completes, and WAIT is still to be performed. -/
theorem AtWait.step_due {rest : List BusOp} {s : State} (h : AtWait rest s) (busy : s.fsm = .busy) (due : s.due = 0) :
    ∃ t, step s = .next t ∧ AtWait rest t ∧ t.fsm = .idle ∧ t.done = true := by
  have ht : turn s = .block := (turn_of_no_pins h.noPins).trans (turnAtPort_block ⟨h.low, busy, due⟩)
  obtain ⟨t, e, idle, done, rst, hostFault, pins, inputs⟩ := blockStep_completes s
  refine ⟨t, ?_, ⟨rst.trans h.low, hostFault.trans h.clean, pins.trans h.noPins, inputs.trans h.head⟩, idle, done⟩
  rw [step, ht, agentStep, tick_of_no_pins h.noPins, e]

/-- A POLL whose condition is met is a read, and the host goes on. -/
theorem performOp_poll_met {a : WindowOffset} {mask val : Word} {s : State} (rest : List BusOp)
    (hv : (readAnswer a 4 s).2 &&& mask = val) : performOp (.poll a mask val) rest s = setInputs rest (busRead a 4 s) := by
  simp [performOp, hv]

/-- With no command in flight WAIT reads BUSY = 0 and ends. -/
theorem AtWait.step_idle {rest : List BusOp} {s : State} (h : AtWait rest s) (idle : s.fsm = .idle) :
    ∃ t, step s = .next t ∧ t.inputs = rest ∧ t.fsm = .idle ∧ t.done = s.done ∧
      t.reply = some (.read .ok (statusWord s)) ∧ statusWord s &&& 1#32 = 0#32 := by
  have ht := h.turn_of_not_due (by simp [idle])
  have notBusy : statusWord s &&& 1#32 = 0#32 := by simp [statusWord_and_one, State.busy, idle]
  have met : (readAnswer (regOffset .status) 4 (passStep (tick s))).2 &&& 1#32 = 0#32 := by
    rwa [readAnswer_passStep_tick _ 4 h.low, readAnswer_regOffset]
  refine ⟨_, step_of_host ht h.low h.clean, ?_⟩
  rw [pollOp, performOp_poll_met rest met, passStep_tick_low h.low]
  exact ⟨rfl, idle, rfl, by rw [setInputs_reply, busRead_regOffset]; rfl, notBusy⟩

/-- `due` reads of BUSY = 1, the completion, and the read of BUSY = 0. -/
theorem AtWait.run_ends {rest : List BusOp} (n : Nat) : ∀ {s : State}, AtWait rest s → s.fsm = .busy → s.due = n →
    ∃ t, Host.Core.run core (n + 2) s = .next t ∧ t.inputs = rest ∧ t.fsm = .idle ∧ t.done = true ∧
      ∃ d, t.reply = some (.read .ok d) ∧ d &&& 1#32 = 0#32 := by
  induction n with
  | zero =>
    intro s h busy due
    obtain ⟨t, completes, waits, idle, done⟩ := h.step_due busy due
    obtain ⟨u, ends, inputs, idle', done', reply, notBusy⟩ := waits.step_idle idle
    exact ⟨u, (run_succ 1 completes).trans (run_succ 0 ends), inputs, idle', done'.trans done, _, reply, notBusy⟩
  | succ n ih =>
    intro s h busy due
    obtain ⟨t, reads, waits, busy', due'⟩ := h.step_busy busy (by omega)
    obtain ⟨u, run, ends⟩ := ih waits busy' (by omega)
    exact ⟨u, (run_succ (n + 2) reads).trans run, ends⟩

/-- Settles O51, by induction on the delay. -/
theorem waitEndsAfterTheCompletion : Obligations.WaitEndsAfterTheCompletion :=
  fun s _ low clean busy noPins head => AtWait.run_ends s.due ⟨low, clean, noPins, head⟩ busy rfl

/-! ### Wide reads (R73) -/

/-- Reads of the registers `rs` into the variables from `x` on. -/
def readsFrom (x : Nat) : List Reg → List BusOp
  | [] => []
  | r :: rs => rdOp r x :: readsFrom (x + 1) rs

/-- The state after the host has performed `ops` at the port, with nothing of another agent in between. -/
def performAll (ops : List BusOp) (s : State) : State := ops.foldl (fun u op => performOp op [] u) s

theorem performOp_rdOp (r : Reg) (x : Nat) (rest : List BusOp) (s : State) :
    performOp (rdOp r x) rest s = { s with
      reply := some (.read .ok (readReg r s)), vars := assignVar x (readReg r s) s.vars, inputs := rest } := by
  simp [performOp, rdOp, busRead_regOffset, setVar, setInputs]

theorem performAll_readsFrom_cons (r : Reg) (rs : List Reg) (x : Nat) (s : State) :
    performAll (readsFrom x (r :: rs)) s = performAll (readsFrom (x + 1) rs) (performOp (rdOp r x) [] s) :=
  rfl

@[simp] theorem readReg_performOp_rdOp (q r : Reg) (x : Nat) (rest : List BusOp) (s : State) :
    readReg q (performOp (rdOp r x) rest s) = readReg q s := by
  rw [performOp_rdOp]
  cases q <;> rfl

theorem lookupVar_performOp_rdOp (r : Reg) (x y : Nat) (rest : List BusOp) (s : State) :
    lookupVar y (performOp (rdOp r x) rest s).vars = if y = x then some (readReg r s) else lookupVar y s.vars := by
  rw [performOp_rdOp, lookupVar_assignVar]

/-- Variables that the reads do not name keep their values. -/
theorem lookupVar_readsFrom_outside {rs : List Reg} {x y : Nat} {s : State} (outside : y < x ∨ x + rs.length ≤ y) :
    lookupVar y (performAll (readsFrom x rs) s).vars = lookupVar y s.vars := by
  induction rs generalizing x s with
  | nil => rfl
  | cons r rs ih =>
    rw [List.length_cons] at outside
    rw [performAll_readsFrom_cons, ih (by omega), lookupVar_performOp_rdOp, if_neg (by omega)]

/-- The variable `x + j` takes the value of the `j`-th register read. -/
theorem lookupVar_readsFrom_inside {rs : List Reg} {x j : Nat} {r : Reg} {s : State} (read : rs[j]? = some r) :
    lookupVar (x + j) (performAll (readsFrom x rs) s).vars = some (readReg r s) := by
  induction rs generalizing x j s with
  | nil => simp at read
  | cons q rs ih =>
    rw [performAll_readsFrom_cons]
    cases j with
    | zero =>
      cases read
      rw [lookupVar_readsFrom_outside (by omega), lookupVar_performOp_rdOp, Nat.add_zero, if_pos rfl]
    | succ j =>
      have shifted := ih (x := x + 1) (s := performOp (rdOp q x) [] s) read
      rwa [readReg_performOp_rdOp, Nat.add_right_comm] at shifted

theorem wideVar128_of_words {x : Nat} {vars : List (Nat × Word)} {v : Counter}
    (word : ∀ j : Fin 4, lookupVar (x + j) vars = some (word4 v j)) : wideVar128 x vars = some v := by
  have w0 : lookupVar x vars = _ := word 0
  have w1 : lookupVar (x + 1) vars = _ := word 1
  have w2 : lookupVar (x + 2) vars = _ := word 2
  have w3 : lookupVar (x + 3) vars = _ := word 3
  simp only [wideVar128, w0, w1, w2, w3, join4_word4]

theorem wideVar160_of_words {x : Nat} {vars : List (Nat × Word)} {v : Wide}
    (word : ∀ j : Fin 5, lookupVar (x + j) vars = some (word5 v j)) : wideVar160 x vars = some v := by
  have w0 : lookupVar x vars = _ := word 0
  have w1 : lookupVar (x + 1) vars = _ := word 1
  have w2 : lookupVar (x + 2) vars = _ := word 2
  have w3 : lookupVar (x + 3) vars = _ := word 3
  have w4 : lookupVar (x + 4) vars = _ := word 4
  simp only [wideVar160, w0, w1, w2, w3, w4, join5_word5]

/-- RD128 of registers that hold the words of `v` leaves `v` in its four variables, and the others alone. -/
theorem rd128_reads {s : State} {r : Reg128} {v : Counter} (x : Nat) (words : ∀ j, readReg (reg128 r j) s = word4 v j) :
    wideVar128 x (performAll (expandLine (.rd128 r x)) s).vars = some v ∧
    ∀ y, y < x ∨ x + 4 ≤ y → lookupVar y (performAll (expandLine (.rd128 r x)) s).vars = lookupVar y s.vars := by
  have reads : expandLine (.rd128 r x) = readsFrom x ((List.finRange 4).map (reg128 r)) := rfl
  have word (j : Fin 4) : lookupVar (x + j) (performAll (expandLine (.rd128 r x)) s).vars = some (word4 v j) := by
    rw [reads, lookupVar_readsFrom_inside (r := reg128 r j) (by simp), words]
  exact ⟨wideVar128_of_words word, fun y outside => reads ▸ lookupVar_readsFrom_outside outside⟩

/-- RD160 of registers that hold the words of `v` leaves `v` in its five variables, and the others alone. -/
theorem rd160_reads {s : State} {r : Reg160} {v : Wide} (x : Nat) (words : ∀ j, readReg (reg160 r j) s = word5 v j) :
    wideVar160 x (performAll (expandLine (.rd160 r x)) s).vars = some v ∧
    ∀ y, y < x ∨ x + 5 ≤ y → lookupVar y (performAll (expandLine (.rd160 r x)) s).vars = lookupVar y s.vars := by
  have reads : expandLine (.rd160 r x) = readsFrom x ((List.finRange 5).map (reg160 r)) := rfl
  have word (j : Fin 5) : lookupVar (x + j) (performAll (expandLine (.rd160 r x)) s).vars = some (word5 v j) := by
    rw [reads, lookupVar_readsFrom_inside (r := reg160 r j) (by simp), words]
  exact ⟨wideVar160_of_words word, fun y outside => reads ▸ lookupVar_readsFrom_outside outside⟩

/-- Settles O53: each register's value reads as its words, one case per register. -/
theorem wideReadsAssembleTheValue : Obligations.WideReadsAssembleTheValue := by
  refine ⟨fun s r x => ?_, fun s r x => ?_⟩
  · cases r <;> exact rd128_reads x fun _ => rfl
  · cases r <;> exact rd160_reads x fun _ => rfl

/-! ### Words and operations written out (R65, R72 to R74) -/

/-- A word with a reserved bit set is rejected for it, whatever its opcode (R66). -/
theorem decode_of_reserved {w : Word} (h : rsvField w ≠ 0#28) : decode w = .error .reservedBits :=
  if_neg h

/-- Settles O1: six words as encodings, two rejected by their opcode and two by a reserved bit. -/
theorem decodeReadsTableWords : Obligations.DecodeReadsTableWords :=
  ⟨decode_encode .nop, decode_encode .validate, decode_encode .divide, decode_encode .increment, decode_encode .position,
    decode_encode .copyback, rfl, rfl, decode_of_reserved (by decide), decode_of_reserved (by decide), rfl⟩

theorem encodeProgram_cmd (i : Instr) : encodeProgram [.cmd i] = [⟨.w, regOffset .cmd, 4, some (encode i)⟩] := rfl

theorem encodeProgram_wr128 (r : Reg128) (v : Counter) : encodeProgram [.wr128 r v] =
    (List.finRange 4).map fun j => ⟨.w, regOffset (reg128 r j), 4, some (word4 v j)⟩ := rfl

theorem encodeProgram_wr160Off (v : Wide) : encodeProgram [.wr160Off v] =
    (List.finRange 5).map fun j => ⟨.w, regOffset (.off j), 4, some (word5 v j)⟩ := rfl

theorem encodeProgram_rd128 (r : Reg128) (x : Nat) : encodeProgram [.rd128 r x] =
    (List.finRange 4).map fun j => ⟨.r, regOffset (reg128 r j), 4, none⟩ := rfl

theorem encodeProgram_rd160 (r : Reg160) (x : Nat) : encodeProgram [.rd160 r x] =
    (List.finRange 5).map fun j => ⟨.r, regOffset (reg160 r j), 4, none⟩ := rfl

/-- Settles O52: each pseudo-operation is one transaction per word register it names, at that register's offset. -/
theorem pseudoOperationsExpand : Obligations.PseudoOperationsExpand :=
  ⟨encodeProgram_cmd .position, encodeProgram_cmd, encodeProgram_wr128 .ivIn, encodeProgram_wr128 .blk,
    encodeProgram_wr160Off, encodeProgram_rd128 .ivOut, encodeProgram_rd128 .ivIn, encodeProgram_rd128 .blk,
    encodeProgram_rd160 .off, encodeProgram_rd160 .quot, rfl, rfl⟩

end Sys2Proof.Machine

namespace Sys2Proof.Machine

/-! ### The three checks as numbers, and VALIDATE (R75 to R81) -/

theorem keyLengthBad_iff (n : Word) : keyLengthBad n = true ↔ n.toNat ≠ 32 := by
  simp [keyLengthBad, BitVec.toNat_eq]

theorem ivLengthBad_iff (n : Word) : ivLengthBad n = true ↔ n.toNat ≠ 16 := by
  simp [ivLengthBad, BitVec.toNat_eq]

/-- Each check has its own bit of the mask, whatever the other two say. -/
theorem maskOf_eq_sum (key iv offset : Bool) :
    maskOf key iv offset false =
      BitVec.ofNat 4 ((if key then 1 else 0) + (if iv then 2 else 0) + (if offset then 4 else 0)) := by
  cases key <;> cases iv <;> cases offset <;> rfl

/-- The cause is the first check that fails, in the order key, IV, offset. -/
theorem causeOf_maskOf (key iv offset : Bool) :
    causeOf (maskOf key iv offset false) = if key then 1#4 else if iv then 2#4 else if offset then 3#4 else 0#4 := by
  cases key <;> cases iv <;> cases offset <;> rfl

theorem checkMask_eq_sum (keylen ivlen : Word) (neg : Bool) (off : Wide) :
    checkMask keylen ivlen neg off =
      BitVec.ofNat 4 ((if keylen.toNat ≠ 32 then 1 else 0) + (if ivlen.toNat ≠ 16 then 2 else 0) +
        (if neg = true ∧ off.toNat ≠ 0 then 4 else 0)) := by
  simp only [checkMask, maskOf_eq_sum, keyLengthBad_iff, ivLengthBad_iff, offsetNegative_iff]

theorem causeOf_checkMask (keylen ivlen : Word) (neg : Bool) (off : Wide) :
    causeOf (checkMask keylen ivlen neg off) =
      if keylen.toNat ≠ 32 then 1#4 else if ivlen.toNat ≠ 16 then 2#4
      else if neg = true ∧ off.toNat ≠ 0 then 3#4 else 0#4 := by
  simp only [checkMask, causeOf_maskOf, keyLengthBad_iff, ivLengthBad_iff, offsetNegative_iff]

/-- A command with no outputs completes in the same way whether or not a check fails. -/
theorem completeWith_id (m : BitVec 4) (s : State) : completeWith m id s = complete m s := by
  rw [completeWith, id, ite_self]

theorem exec_validate (s : State) :
    exec .validate s = .next (complete (checkMask s.latch.keylen s.latch.ivlen s.latch.neg s.latch.off) s) :=
  (exec_eq .validate s).trans (congrArg Host.Outcome.next (completeWith_id _ s))

/-- Settles O6: VALIDATE's completion, with its mask and cause as the numbers of the three checks. -/
theorem validateRecordsEveryViolation : Obligations.ValidateRecordsEveryViolation := by
  refine ⟨decode_encode .validate, fun s => ?_⟩
  rw [exec_validate, complete, causeOf_checkMask, checkMask_eq_sum]

end Sys2Proof.Machine

namespace Sys2Proof.Machine

/-! ### The increment as addition of 128-bit words (R82 to R86) -/

theorem inc128_eq_add (v : Counter) (b : Nat) : inc128 v b = v + BitVec.ofNat 128 b := by
  rw [inc128, BitVec.ofNat_add, BitVec.ofNat_toNat, BitVec.setWidth_eq]

theorem inc128_ofNat (n b : Nat) : inc128 (BitVec.ofNat 128 n) b = BitVec.ofNat 128 (n + b) := by
  rw [inc128_eq_add, BitVec.ofNat_add]

theorem inc128_eq_ofNat_mod (v : Counter) (b : Nat) : inc128 v b = BitVec.ofNat 128 ((v.toNat + b) % 2 ^ 128) :=
  BitVec.eq_of_toNat_eq (by rw [inc128_toNat, BitVec.toNat_ofNat, Nat.mod_mod])

theorem inc128_zero (v : Counter) : inc128 v 0 = v := by
  rw [inc128_eq_add, BitVec.add_zero]

theorem inc128_inc128 (v : Counter) (b1 b2 : Nat) : inc128 (inc128 v b1) b2 = inc128 v (b1 + b2) := by
  rw [inc128_eq_add, inc128_eq_add, inc128_eq_add, BitVec.ofNat_add, BitVec.add_assoc]

theorem inc128_add_period (v : Counter) (b : Nat) : inc128 v (b + 2 ^ 128) = inc128 v b :=
  inc128_congr v (Nat.add_mod_right b (2 ^ 128))

theorem inc128_injective {v1 v2 : Counter} {b : Nat} (h : inc128 v1 b = inc128 v2 b) : v1 = v2 := by
  rw [inc128_eq_add, inc128_eq_add] at h
  exact (BitVec.add_left_inj _).1 h

/-- Settles O13: the increment is the addition of one group element, and a count counts modulo the group's order. -/
theorem incrementObeysItsLaws : Obligations.IncrementObeysItsLaws :=
  ⟨inc128_zero, inc128_inc128, inc128_add_period, fun _ _ _ => inc128_injective, fun v b => (inc128 v b).isLt⟩

theorem presentBlocks_toNat (b : Nat) : (presentBlocks b).toNat = b % 2 ^ 128 :=
  BitVec.toNat_ofNat b 128

/-- Settles O14: both counts agree with `b` modulo 2^128. -/
theorem blockCountReductionIsExact : Obligations.BlockCountReductionIsExact := by
  intro v b
  have reduced : inc128 v b = inc128 v (b % 2 ^ 128) := inc128_congr v (Nat.mod_mod b (2 ^ 128)).symm
  exact ⟨reduced, by rw [presentBlocks_toNat, reduced]⟩

/-! ### The increment of IV bytes (R82, R87) -/

theorem incrementIv_eq_bytesBE (iv : List Byte) (b : Nat) :
    incrementIv iv b = bytesBE 16 (inc128 (BitVec.ofNat 128 (beValue iv)) b).toNat := by
  rw [inc128_ofNat, BitVec.toNat_ofNat, incrementIv]

theorem incrementIv_eq_counterBytes (iv : List Byte) (b : Nat) :
    incrementIv iv b = counterBytes (inc128 (BitVec.ofNat 128 (beValue iv)) b) := by
  rw [incrementIv_eq_bytesBE, counterBytes_eq_bytesBE]

/-- Settles O12: the register form by reduction modulo 2^128, the word layout by the bytes of a 128-bit value. -/
theorem incrementOfBytesIsRegisterIncrement : Obligations.IncrementOfBytesIsRegisterIncrement :=
  ⟨inc128_toNat, fun iv b _ => ⟨rfl, incrementIv_eq_bytesBE iv b, incrementIv_eq_counterBytes iv b⟩⟩

@[simp] theorem incrementIv_length (iv : List Byte) (b : Nat) : (incrementIv iv b).length = 16 :=
  bytesBE_length 16 _

theorem beValue_incrementIv (iv : List Byte) (b : Nat) : beValue (incrementIv iv b) = (beValue iv + b) % 2 ^ 128 := by
  rw [incrementIv, beValue_bytesBE, Nat.mod_mod]

/-- With its final carry discarded the chain adds modulo its own width (R83). -/
theorem beValue_carryChain (ps : List (Byte × Byte)) :
    beValue (carryChain ps).1 = (beValue (ps.map Prod.fst) + beValue (ps.map Prod.snd)) % 2 ^ (8 * ps.length) := by
  obtain ⟨length, sum⟩ := carryChain_spec ps
  have fits := beValue_lt (carryChain ps).1
  rw [length] at fits
  rw [← sum, Nat.add_mul_mod_self_right, Nat.mod_eq_of_lt fits]

theorem zip_bytesBE_length {iv : List Byte} {n : Nat} (h : iv.length = n) (v : Nat) :
    (iv.zip (bytesBE n v)).length = n := by
  rw [List.length_zip, bytesBE_length, h, Nat.min_self]

theorem byteSerialIncrement_length {iv : List Byte} (h : iv.length = 16) (b : Nat) :
    (byteSerialIncrement iv b).length = 16 :=
  (carryChain_spec _).1.trans (zip_bytesBE_length h _)

theorem beValue_byteSerialIncrement {iv : List Byte} (h : iv.length = 16) (b : Nat) :
    beValue (byteSerialIncrement iv b) = (beValue iv + b) % 2 ^ 128 := by
  have same : iv.length = (bytesBE 16 (b % 2 ^ 128)).length := by rw [h, bytesBE_length]
  rw [byteSerialIncrement, beValue_carryChain, List.map_fst_zip same.le, List.map_snd_zip same.ge,
    zip_bytesBE_length h, beValue_bytesBE, Nat.mod_mod, Nat.add_mod_mod]

/-- Settles O15: two strings of 16 bytes with the same value. -/
theorem byteSerialChainRefinesIncrement : Obligations.ByteSerialChainRefinesIncrement := by
  intro iv b h
  apply beValue_injective
  · rw [byteSerialIncrement_length h, incrementIv_length]
  · rw [beValue_byteSerialIncrement h, beValue_incrementIv]

/-! ### INCREMENT and COPYBACK (R88, R89) -/

/-- A command whose checks pass writes its outputs. -/
theorem exec_of_mask_zero {i : Instr} {s : State} (pass : maskOfCommand i s.latch = 0#4) :
    exec i s = .next (complete 0#4 (outputsOfCommand i s.latch s)) := by
  rw [exec_eq, pass, completeWith_zero]

/-- A command with a failing check writes no output. -/
theorem exec_of_mask_error {i : Instr} {s : State} (error : maskOfCommand i s.latch ≠ 0#4) :
    exec i s = .next (complete (maskOfCommand i s.latch) s) := by
  rw [exec_eq, completeWith_error error]

theorem maskOf_iv (iv : Bool) : maskOf false iv false false = if iv then 2#4 else 0#4 := by
  cases iv <;> rfl

theorem maskOfCommand_increment (l : Latch) :
    maskOfCommand .increment l = if l.ivlen.toNat ≠ 16 then 2#4 else 0#4 := by
  simp only [maskOfCommand, maskOf_iv, ivLengthBad_iff]

theorem exec_increment {s : State} (h : s.latch.ivlen.toNat = 16) :
    exec .increment s = .next (complete 0#4 { s with ivOut := inc128 s.latch.iv s.latch.blk.toNat }) :=
  exec_of_mask_zero (by rw [maskOfCommand_increment, if_neg (not_not.2 h)])

theorem exec_increment_error {s : State} (h : s.latch.ivlen.toNat ≠ 16) :
    exec .increment s = .next (complete 2#4 s) := by
  have mask : maskOfCommand .increment s.latch = 2#4 := by rw [maskOfCommand_increment, if_pos h]
  rw [exec_of_mask_error (by rw [mask]; decide), mask]

/-- Settles O7: INCREMENT's completion on both sides of its one check. -/
theorem incrementAddsModulo : Obligations.IncrementAddsModulo := by
  refine ⟨decode_encode .increment, fun s valid => ?_, fun s invalid => ?_⟩
  · rw [exec_increment valid, inc128_eq_ofNat_mod, complete, causeOf_zero]
  · exact exec_increment_error invalid

theorem exec_copyback (s : State) : exec .copyback s = .next (complete 0#4 { s with ivIn := s.latch.ivout }) :=
  exec_of_mask_zero rfl

/-- COPYBACK overwrites whatever the host put into IV_IN while it was in flight. -/
theorem exec_copyback_writeReg_ivIn (s : State) (j : Fin 4) (v : Word) :
    exec .copyback (writeReg (.ivIn j) v s) = exec .copyback s := by
  rw [exec_copyback, exec_copyback, writeReg]

/-- Settles O10: COPYBACK's completion, which reads no IV_IN, and the latch that acceptance loads. -/
theorem copybackMovesTheLatchedResult : Obligations.CopybackMovesTheLatchedResult :=
  ⟨decode_encode .copyback, exec_copyback, exec_copyback_writeReg_ivIn, fun _ _ => rfl⟩

/-! ### Commands one after another (R86) -/

/-- INCREMENT accepted from the registers adds BLK to IV_IN. -/
theorem exec_increment_loadLatch (w : Word) {s : State} (h : s.ivlen = 16#32) :
    exec .increment (loadLatch w s) =
      .next (complete 0#4 { loadLatch w s with ivOut := inc128 s.ivIn s.blk.toNat }) :=
  exec_increment (congrArg BitVec.toNat h)

/-- COPYBACK accepted from the registers moves IV_OUT to IV_IN. -/
theorem exec_copyback_loadLatch (w : Word) (s : State) :
    exec .copyback (loadLatch w s) = .next (complete 0#4 { loadLatch w s with ivIn := s.ivOut }) :=
  exec_copyback (loadLatch w s)

/-- Settles O21: the three completions in turn; the last IV_OUT is an increment of an increment. -/
theorem chainedIncrementsAddUp : Obligations.ChainedIncrementsAddUp := by
  intro s b2 h
  refine ⟨_, _, _, exec_increment_loadLatch 3#32 h, exec_copyback_loadLatch 5#32 _,
    exec_increment_loadLatch 3#32 h, rfl, rfl, ?_⟩
  change (inc128 (inc128 s.ivIn s.blk.toNat) b2.toNat).toNat = _
  rw [inc128_inc128, inc128_toNat, Nat.add_assoc]

end Sys2Proof.Machine

namespace Sys2Proof.Machine

/-! ### The divider's quotient and residual (R90 to R92) -/

/-- The shift and the mask of the offset register are the divider on its value (R91). -/
theorem divmod16_toNat (off : Wide) : divmod16 off.toNat = ((quotientOf off).toNat, (residualOf off).toNat) := by
  rw [quotientOf_toNat, residualOf_toNat, divmod16]

theorem quotientOf_eq_ofNat (off : Wide) : quotientOf off = BitVec.ofNat 160 (off.toNat / 16) := by
  rw [← quotientOf_toNat, BitVec.ofNat_toNat, BitVec.setWidth_eq]

theorem residualOf_eq_ofNat (off : Wide) : residualOf off = BitVec.ofNat 4 (off.toNat % 16) := by
  rw [← residualOf_toNat, BitVec.ofNat_toNat, BitVec.setWidth_eq]

theorem divmod16_sum (o : Nat) : o = 16 * (divmod16 o).1 + (divmod16 o).2 :=
  (Nat.div_add_mod o 16).symm

theorem divmod16_residual_lt (o : Nat) : (divmod16 o).2 < 16 :=
  Nat.mod_lt o (by decide)

theorem divmod16_unique {o q res : Nat} (small : res < 16) (sum : o = 16 * q + res) : (q, res) = divmod16 o := by
  obtain ⟨quotient, residual⟩ := (Nat.div_mod_unique (by decide)).2 ⟨(Nat.add_comm _ _).trans sum.symm, small⟩
  rw [divmod16, quotient, residual]

/-- Settles O16: division with remainder; the register's shift and mask inherit it. -/
theorem dividerLosesNothing : Obligations.DividerLosesNothing := by
  refine ⟨fun o => ⟨divmod16_sum o, divmod16_residual_lt o, fun q res => divmod16_unique⟩, fun off => ⟨?_, ?_⟩⟩
  · simpa only [divmod16_toNat] using divmod16_sum off.toNat
  · intro q res small sum
    have pair := divmod16_unique small sum
    rw [divmod16_toNat] at pair
    exact Prod.mk.inj pair

/-! ### DIVIDE (R95) -/

theorem maskOf_offset (offset : Bool) : maskOf false false offset false = if offset then 4#4 else 0#4 := by
  cases offset <;> rfl

theorem maskOfCommand_divide (l : Latch) :
    maskOfCommand .divide l = if l.neg = true ∧ l.off.toNat ≠ 0 then 4#4 else 0#4 := by
  simp only [maskOfCommand, maskOf_offset, offsetNegative_iff]

theorem exec_divide {s : State} (h : s.latch.neg = false ∨ s.latch.off.toNat = 0) :
    exec .divide s =
      .next (complete 0#4 { s with quot := quotientOf s.latch.off, resid := residualOf s.latch.off }) := by
  have notNegative : ¬(s.latch.neg = true ∧ s.latch.off.toNat ≠ 0) := by
    rwa [not_and_or, Bool.not_eq_true, not_not]
  exact exec_of_mask_zero (by rw [maskOfCommand_divide, if_neg notNegative])

theorem exec_divide_error {s : State} (negative : s.latch.neg = true) (magnitude : s.latch.off.toNat ≠ 0) :
    exec .divide s = .next (complete 4#4 s) := by
  have mask : maskOfCommand .divide s.latch = 4#4 := by
    rw [maskOfCommand_divide, if_pos ⟨negative, magnitude⟩]
  rw [exec_of_mask_error (by rw [mask]; decide), mask]

/-- Settles O8: DIVIDE's completion on both sides of its one check. -/
theorem divideSplitsTheOffset : Obligations.DivideSplitsTheOffset := by
  refine ⟨decode_encode .divide, fun s valid => ?_, fun s negative magnitude => ?_⟩
  · rw [exec_divide valid, quotientOf_eq_ofNat, residualOf_eq_ofNat, complete, causeOf_zero]
  · exact exec_divide_error negative magnitude

/-! ### The width of the offset register (R93) -/

/-- Dropping the offset's high bits before the division drops the quotient's high bits after it. -/
theorem mod_two_pow_div_16 (o k : Nat) : o % 2 ^ (k + 4) / 16 = o / 16 % 2 ^ k := by
  rw [Nat.pow_add, Nat.mul_comm]
  exact Nat.mod_mul_right_div_self o 16 (2 ^ k)

theorem mod_two_pow_mod_16 (o : Nat) {width : Nat} (wide : 4 ≤ width) : o % 2 ^ width % 16 = o % 16 :=
  Nat.mod_mod_of_dvd o (Nat.pow_dvd_pow 2 wide)

/-- The block count of a register of 132 bits or more is exact modulo 2^128, which is all the increment reads (R85). -/
theorem inc128_mod_two_pow_div_16 (iv : Counter) (o : Nat) {width : Nat} (wide : 132 ≤ width) :
    inc128 iv (o % 2 ^ width / 16) = inc128 iv (o / 16) := by
  obtain ⟨extra, rfl⟩ := Nat.exists_eq_add_of_le' wide
  apply inc128_congr
  rw [mod_two_pow_div_16 o (extra + 128)]
  exact Nat.mod_mod_of_dvd _ (Nat.pow_dvd_pow 2 (Nat.le_add_left 128 extra))

/-! ### POSITION on the 160-bit register (R93, R98) -/

/-- POSITION's quotient needs no reduction before the increment (R85). -/
theorem derivedIv_eq_inc128 (iv : Counter) (off : Wide) : derivedIv iv off = inc128 iv (off.toNat / 16) := by
  rw [derivedIv, quotientOf_toNat]
  exact inc128_congr iv (Nat.mod_mod _ _)

/-- POSITION whose three checks pass writes its three outputs. -/
theorem exec_position {s : State} (key : s.latch.keylen = 32#32) (iv : s.latch.ivlen = 16#32)
    (offset : s.latch.neg = false ∨ s.latch.off = 0#160) :
    exec .position s = .next (complete 0#4 { s with
      quot := quotientOf s.latch.off, resid := residualOf s.latch.off, ivOut := derivedIv s.latch.iv s.latch.off }) :=
  exec_of_mask_zero ((checkMask_eq_zero _ _ _ _).2 ⟨key, iv, offset⟩)

theorem derivedIv_ofNat_toNat (iv : Counter) (o : Nat) :
    (derivedIv iv (BitVec.ofNat 160 o)).toNat = (iv.toNat + o / 16) % 2 ^ 128 := by
  rw [derivedIv_eq_inc128, BitVec.toNat_ofNat, inc128_mod_two_pow_div_16 iv o (by decide), inc128_toNat]

theorem residualOf_ofNat_toNat (o : Nat) : (residualOf (BitVec.ofNat 160 o)).toNat = o % 16 := by
  rw [residualOf_toNat, BitVec.toNat_ofNat, mod_two_pow_mod_16 o (by decide)]

theorem quotientOf_ofNat_toNat (o : Nat) : (quotientOf (BitVec.ofNat 160 o)).toNat = o / 16 % 2 ^ 156 := by
  rw [quotientOf_toNat, BitVec.toNat_ofNat, mod_two_pow_div_16 o 156]

/-- Settles O17: the arithmetic at 132 bits, at every wider register, and POSITION's outputs at 160 bits. -/
theorem offsetWidthIsExact : Obligations.OffsetWidthIsExact := by
  refine ⟨fun o => ⟨(mod_two_pow_div_16 o 128).symm, (mod_two_pow_mod_16 o (by decide)).symm⟩, ?_, ?_⟩
  · intro o width iv wide
    exact ⟨inc128_mod_two_pow_div_16 iv o wide, mod_two_pow_mod_16 o (Nat.le_trans (by decide) wide)⟩
  · intro s o key iv positive offset
    refine ⟨_, exec_position key iv (.inl positive), rfl, ?_⟩
    simp only [complete_ivOut, complete_resid, complete_quot, offset]
    exact ⟨derivedIv_ofNat_toNat _ o, residualOf_ofNat_toNat o, quotientOf_ofNat_toNat o⟩

end Sys2Proof.Machine

namespace Sys2Proof.Machine

/-! ### POSITION on both sides of its checks (R96, R98) -/

/-- The mask is nonzero exactly when one of the three checks fails (R75). -/
theorem checkMask_ne_zero_iff (keylen ivlen : Word) (neg : Bool) (off : Wide) :
    checkMask keylen ivlen neg off ≠ 0#4 ↔
      keylen.toNat ≠ 32 ∨ ivlen.toNat ≠ 16 ∨ (neg = true ∧ off.toNat ≠ 0) := by
  simp only [checkMask, ne_eq, maskOf_eq_zero, and_true, not_and_or, Bool.not_eq_false, keyLengthBad_iff,
    ivLengthBad_iff, offsetNegative_iff]

/-- Once some check fails, a cause that is neither the key's nor the IV's is the offset's (R79). -/
theorem causeOf_checkMask_of_error {keylen ivlen : Word} {neg : Bool} {off : Wide}
    (error : keylen.toNat ≠ 32 ∨ ivlen.toNat ≠ 16 ∨ (neg = true ∧ off.toNat ≠ 0)) :
    causeOf (checkMask keylen ivlen neg off) =
      if keylen.toNat ≠ 32 then 1#4 else if ivlen.toNat ≠ 16 then 2#4 else 3#4 := by
  rw [causeOf_checkMask]
  split_ifs with key iv offset
  case neg => exact (error.elim key (·.elim iv offset)).elim
  all_goals rfl

/-- POSITION with a failing check writes no output. -/
theorem exec_position_error {s : State} (error : checkMask s.latch.keylen s.latch.ivlen s.latch.neg s.latch.off ≠ 0#4) :
    exec .position s = .next (complete (checkMask s.latch.keylen s.latch.ivlen s.latch.neg s.latch.off) s) :=
  exec_of_mask_error error

/-- Settles O9: POSITION's completion with every check passed, and with a violation recorded. -/
theorem positionDerivesTheCounter : Obligations.PositionDerivesTheCounter := by
  refine ⟨decode_encode .position, fun s key iv offset => ?_, fun s error => ?_⟩
  · have magnitude : s.latch.neg = false ∨ s.latch.off = 0#160 := offset.imp_right BitVec.eq_of_toNat_eq
    rw [exec_position (BitVec.eq_of_toNat_eq key) (BitVec.eq_of_toNat_eq iv) magnitude, quotientOf_eq_ofNat,
      residualOf_eq_ofNat, derivedIv_eq_inc128, inc128_eq_ofNat_mod, complete, causeOf_zero]
  · rw [exec_position_error ((checkMask_ne_zero_iff _ _ _ _).2 error), complete, causeOf_checkMask_of_error error,
      checkMask_eq_sum]

/-- INCREMENT by a quotient that the host presents in 128 bits gives POSITION's counter (R85, R96). -/
theorem inc128_presentBlocks (iv : Counter) (off : Wide) :
    inc128 iv (presentBlocks (off.toNat / 16)).toNat = derivedIv iv off := by
  rw [presentBlocks_toNat, derivedIv, quotientOf_toNat]

/-- Settles O20: both commands succeed, and their two counters are one increment. -/
theorem positionAgreesWithIncrement : Obligations.PositionAgreesWithIncrement := by
  intro s t key iv offset ivOfT sameIv blocks
  refine ⟨_, _, exec_position key iv offset, exec_increment (congrArg BitVec.toNat ivOfT), rfl, rfl, ?_⟩
  simp only [complete_ivOut]
  rw [sameIv, blocks, inc128_presentBlocks]

end Sys2Proof.Machine

namespace Sys2Proof.Machine

/-! ### The block's step (R106, R108) -/

theorem step_of_block {s : State} (ht : turn s = .block) : step s = blockStep (tick s) := by
  rw [step, ht, agentStep]

theorem blockStep_of_ok {s : State} {i : Instr} (h : decode s.latch.cmd = .ok i) : blockStep s = exec i s := by
  rw [blockStep, h]

theorem blockStep_of_error {s : State} {e : IllegalWord} (h : decode s.latch.cmd = .error e) :
    blockStep s = execIllegal s := by
  rw [blockStep, h]

/-- Settles O3: it is the block's turn, and its step decodes the latch that the pin's side of the step leaves alone. -/
theorem stepRunsTheLatchedCommand : Obligations.StepRunsTheLatchedCommand := by
  intro s noPin low busy due
  have completes : step s = blockStep (tick s) := step_of_block ((turn_block_iff s).2 ⟨noPin, low, busy, due⟩)
  refine ⟨fun i decoded => ?_, fun e rejected => completes.trans (blockStep_of_error rejected)⟩
  have runs : step s = exec i (tick s) := completes.trans (blockStep_of_ok decoded)
  exact ⟨runs, fun noPins => by rw [runs, tick_of_no_pins noPins]⟩

/-- Settles O4: such a word is rejected, and a rejected word completes with mask 8. -/
theorem illegalWordRecordsIllegalCommand : Obligations.IllegalWordRecordsIllegalCommand := by
  intro s illegal
  obtain ⟨e, rejected⟩ := (exists_decode_error_iff s.latch.cmd).2 illegal
  exact ⟨(blockStep_of_error rejected).trans (execIllegal_eq s), BitVec.eq_of_toNat_eq (errWord_toNat _)⟩

/-! ### The CMD write (R105, R107) -/

theorem busWrite_cmd_idle {s : State} (w : Word) (idle : s.fsm = .idle) :
    busWrite (regOffset .cmd) 4 w s = setReply (.write .ok) (accept w s) := by
  rw [busWrite_regOffset, writeReg, issue_idle w idle]

theorem busWrite_cmd_busy {s : State} (w : Word) (busy : s.fsm = .busy) :
    busWrite (regOffset .cmd) 4 w s = { s with ovr := true, reply := some (.write .ok) } := by
  rw [busWrite_regOffset, writeReg, issue_busy w busy, setReply]

/-- Settles O22: the acceptance, with the latency drawn and the count of acceptances. -/
theorem idleCmdWriteIsAccepted : Obligations.IdleCmdWriteIsAccepted :=
  fun _ w idle => ⟨_, _, busWrite_cmd_idle w idle⟩

/-- Settles O5: NOP has no check and no output, and the word 0 overruns like any other. -/
theorem nopClearsErr : Obligations.NopClearsErr :=
  ⟨decode_encode .nop, fun _ => exec_of_mask_zero rfl, fun _ busy => busWrite_cmd_busy 0#32 busy⟩

/-- A change of fields that completions neither read nor write is carried through every command's completion. -/
theorem exec_commutes {i : Instr} {s t : State} {g : State → State} (latch : (g s).latch = s.latch)
    (completion : ∀ m u, complete m (g u) = g (complete m u))
    (outputs : ∀ l, outputsOfCommand i l (g s) = g (outputsOfCommand i l s)) (h : exec i s = .next t) :
    exec i (g s) = .next (g t) := by
  rw [exec_eq, latch]
  rcases exec_cases h with ⟨pass, rfl⟩ | ⟨error, rfl⟩
  · rw [pass, completeWith_zero, outputs, completion]
  · rw [completeWith_error error, completion]

/-- What a dropped CMD write leaves: OVR, and the answer at the port (R107). -/
def overrun (s : State) : State := { s with ovr := true, reply := some (.write .ok) }

theorem exec_overrun {i : Instr} {s t : State} (h : exec i s = .next t) : exec i (overrun s) = .next (overrun t) :=
  exec_commutes (g := overrun) rfl (fun _ _ => rfl) (fun _ => by cases i <;> rfl) h

/-- Settles O23: the overrun, which every completion carries through. -/
theorem busyCmdWriteIsDropped : Obligations.BusyCmdWriteIsDropped := by
  intro s w busy
  have dropped : busWrite (regOffset .cmd) 4 w s = overrun s := busWrite_cmd_busy w busy
  refine ⟨dropped, fun i => ⟨_, exec_eq i s, ?_⟩⟩
  exact (congrArg (exec i) dropped).trans (exec_overrun (exec_eq i s))

/-! ### From acceptance to completion with nothing more to come (R105, R106, R110) -/

/-- The port and the model's own counters once the host's last access, a write, is answered: `due` steps are left before
the completion. -/
def lastWriteAnswered (due issued : Nat) (s : State) : State :=
  { s with reply := some (.write .ok), inputs := [], due := due, issued := issued }

theorem exec_lastWriteAnswered {i : Instr} {s t : State} (due issued : Nat) (h : exec i s = .next t) :
    exec i (lastWriteAnswered due issued s) = .next (lastWriteAnswered due issued t) :=
  exec_commutes (g := lastWriteAnswered due issued) rfl (fun _ _ => rfl) (fun _ => by cases i <;> rfl) h

/-- The host's last access is accepted as a command. -/
theorem step_accepts_last {s : State} {w : Word} (low : s.rst = false) (clean : s.hostFault = false)
    (idle : s.fsm = .idle) (noPins : s.pins = []) (last : s.inputs = [wrOp .cmd w]) :
    step s = .next (lastWriteAnswered (Config.latency s.issued) (s.issued + 1) (loadLatch w s)) := by
  have ht : turn s = .host (wrOp .cmd w) [] := by
    rw [turn_of_no_pins noPins, turnAtPort_of_not_block (by simp [idle]), last]
  rw [step_of_host ht low clean, tick_of_no_pins noPins, passStep_low low, wrOp, performOp,
    busWrite_cmd_idle (s := { s with due := s.due - 1 }) w idle]
  rfl

/-- With nothing to come at the port or the pin, only the delay gets shorter. -/
theorem step_waits {s : State} (due issued : Nat) (low : s.rst = false) (noPins : s.pins = []) :
    step (lastWriteAnswered (due + 1) issued s) = .next (lastWriteAnswered due issued s) := by
  have noPins' : (lastWriteAnswered (due + 1) issued s).pins = [] := noPins
  have ht : turn (lastWriteAnswered (due + 1) issued s) = .quiet := by
    rw [turn_of_no_pins noPins', turnAtPort_of_not_block (by simp [lastWriteAnswered])]
    rfl
  have low' : (lastWriteAnswered (due + 1) issued s).rst = false := low
  rw [step, ht, agentStep, tick_of_no_pins noPins', passStep_low low']
  rfl

/-- The delay, and then the completion. -/
theorem run_completes {i : Instr} {s t : State} (issued : Nat) (low : s.rst = false) (noPins : s.pins = [])
    (busy : s.fsm = .busy) (decoded : decode s.latch.cmd = .ok i) (h : exec i s = .next t) (due : Nat) :
    Host.Core.run core (due + 1) (lastWriteAnswered due issued s) = .next (lastWriteAnswered 0 issued t) := by
  induction due with
  | zero =>
    have noPins' : (lastWriteAnswered 0 issued s).pins = [] := noPins
    have ht : turn (lastWriteAnswered 0 issued s) = .block :=
      (turn_of_no_pins noPins').trans (turnAtPort_block ⟨low, busy, rfl⟩)
    have runs : blockStep (lastWriteAnswered 0 issued s) = exec i (lastWriteAnswered 0 issued s) := blockStep_of_ok decoded
    have completes : step (lastWriteAnswered 0 issued s) = .next (lastWriteAnswered 0 issued t) := by
      rw [step_of_block ht, tick_of_no_pins noPins', runs, exec_lastWriteAnswered 0 issued h]
    exact run_succ 0 completes
  | succ due ih => exact (run_succ (due + 1) (step_waits due issued low noPins)).trans ih

/-- Settles O50: the acceptance, the latency drawn for it, and the completion. -/
theorem issuedCommandCompletes : Obligations.IssuedCommandCompletes := by
  intro i s low clean idle noPins last
  have accepted := step_accepts_last low clean idle noPins last
  refine ⟨Config.latency s.issued + 2, _, exec_eq i _, (run_succ _ accepted).trans ?_⟩
  exact run_completes (s := loadLatch (encode i) s) _ low noPins rfl (decode_encode i) (exec_eq i _) _

/-! ### A command in flight that no reset abandons (R17, R110) -/

/-- The host moves only with an access of its own to come. -/
theorem inputs_of_turn_host {s : State} {op : BusOp} {rest : List BusOp} (h : turn s = .host op rest) :
    s.inputs = op :: rest := by
  rcases turn_cases s with ⟨_, _, -, ht⟩ | ⟨-, ht⟩
  · cases ht.symm.trans h
  · have port := ht.symm.trans h
    unfold turnAtPort at port
    split_ifs at port
    split at port <;> cases port
    assumption

/-- A step takes at most the host's next access away. -/
theorem step_inputs {s t : State} (h : step s = .next t) : t.inputs = s.inputs ∨ t.inputs = s.inputs.tail := by
  rcases step_cases h with ⟨-, hb⟩ | ⟨op, rest, ht, -, -, rfl⟩ | ⟨_, _, -, -, -, -, rfl⟩ | ⟨level, rest, -, rfl⟩ | ⟨-, rfl⟩
  · obtain ⟨u, e, -, -, -, -, -, inputs⟩ := blockStep_completes (tick s)
    cases e.symm.trans hb
    exact .inl inputs
  · rw [inputs_of_turn_host ht]
    rcases performOp_cases op rest (passStep (tick s)) with ⟨r, v, -, e⟩ | ⟨_, inputs, _, _, e, taken | kept, -⟩ <;> rw [e]
    · exact .inr rfl
    · exact .inr taken
    · exact .inl (kept.trans ((passStep_inputs (tick s)).trans (inputs_of_turn_host (s := s) ht)))
  · exact .inl (passStep_inputs (tick s))
  · exact .inl (pinStep_inputs level rest s)
  · exact .inl (passStep_inputs (tick s))

/-- A recorded fault keeps the host from its access, and the step goes by (R118; log 17). -/
theorem step_of_host_faulted {s : State} {op : BusOp} {rest : List BusOp} (ht : turn s = .host op rest)
    (low : s.rst = false) (fault : s.hostFault = true) (busy : s.fsm = .busy) :
    step s = .next (passStep (tick s)) := by
  simp [step, ht, agentStep, hostStep, low, fault, busy]

/-- A step answers while a command is in flight at a low pin: the host's fault does not stop the block (R118). -/
theorem step_answers_of_busy {s : State} (low : s.rst = false) (busy : s.fsm = .busy) : ∃ t, step s = .next t := by
  cases ht : turn s with
  | pin level rest => exact ⟨_, step_of_pinDue ((turn_pin_iff s level rest).1 ht)⟩
  | block =>
    obtain ⟨t, e, -⟩ := blockStep_completes (tick s)
    exact ⟨t, (step_of_block ht).trans e⟩
  | host op rest =>
    cases fault : s.hostFault with
    | false => exact ⟨_, step_of_host ht low fault⟩
    | true => exact ⟨_, step_of_host_faulted ht low fault busy⟩
  | quiet => exact ⟨_, by rw [step, ht, agentStep]⟩

/-- A command is in flight, and no reset comes from the pin, nor from the host within the delay that is left. -/
structure Unabandoned (s : State) : Prop where
  low : s.rst = false
  busy : s.fsm = .busy
  noReset : resetWithin s.due s = false

theorem resetWithin_eq_false_iff (k : Nat) (s : State) :
    resetWithin k s = false ↔ s.pins.any PinChange.level = false ∧ (s.inputs.take k).any isReset = false := by
  rw [resetWithin, Bool.or_eq_false_iff]

/-- When the delay is over, only the pin can move before the block. -/
theorem Unabandoned.due_ne_zero {s : State} (h : Unabandoned s) (noPin : noPinDue s) (notBlock : turn s ≠ .block) :
    s.due ≠ 0 :=
  fun due => notBlock ((turn_block_iff s).2 ⟨noPin, h.low, h.busy, due⟩)

theorem noPinDue_of_turn_host {s : State} {op : BusOp} {rest : List BusOp} (h : turn s = .host op rest) : noPinDue s := by
  intro level pins due
  cases (turn_of_pinDue due).symm.trans h

theorem isReset_of_srst {v : Word} (srst : v.getLsbD 0 = true) : isReset (.write (regOffset .ctrl) 4 v) = true := by
  rw [isReset, srst]
  rfl

theorem turn_host_of_writesNow {s : State} {r : Reg} {v : Word} (h : writesNow r v s) :
    ∃ rest, turn s = .host (.write (regOffset r) 4 v) rest := by
  unfold writesNow accessNow at h
  split at h
  case h_1 op rest ht =>
    split_ifs at h
    cases h
    exact ⟨rest, ht⟩
  case h_2 => cases h

theorem Unabandoned.not_resetsNow {s : State} (h : Unabandoned s) : ¬ resetsNow s := by
  obtain ⟨noPinReset, noAccessReset⟩ := (resetWithin_eq_false_iff s.due s).1 h.noReset
  rintro (high | ⟨rest, ht⟩ | ⟨v, write, srst⟩)
  · simp [h.low] at high
  · simp [(turn_pin_iff s true rest).1 ht] at noPinReset
  · obtain ⟨rest, ht⟩ := turn_host_of_writesNow write
    obtain ⟨due, hdue⟩ := Nat.exists_eq_succ_of_ne_zero (h.due_ne_zero (noPinDue_of_turn_host ht) (by simp [ht]))
    simp [inputs_of_turn_host ht, hdue, isReset_of_srst srst] at noAccessReset

/-- A step that is neither a reset nor the completion keeps the flight, and counts towards its delay. -/
theorem Unabandoned.step_flight {s t : State} (h : Unabandoned s) (notBlock : turn s ≠ .block) (hs : step s = .next t) :
    t.rst = false ∧ t.fsm = .busy ∧ t.latch = s.latch ∧ t.due = s.due - 1 := by
  cases step_change hs with
  | reset event => exact absurd event h.not_resetsNow
  | success _ now => exact absurd ((completesNow_iff s).1 now) notBlock
  | failure _ now => exact absurd ((completesNow_iff s).1 now) notBlock
  | acceptance _ _ idle => cases idle.symm.trans h.busy
  | _ => exact ⟨h.low, h.busy, rfl, rfl⟩

/-- A step either takes the pin's next change away, or leaves as many to come. -/
theorem step_pins_cases {s t : State} (h : step s = .next t) :
    (∃ level rest, s.pins = ⟨0, level⟩ :: rest ∧ t.pins = rest) ∨ (noPinDue s ∧ t.pins = tickPins s.pins) := by
  rcases turn_cases s with ⟨level, rest, due, -⟩ | ⟨noPin, -⟩
  · cases (step_of_pinDue due).symm.trans h
    exact .inl ⟨level, rest, due, pinStep_pins level rest s⟩
  · exact .inr ⟨noPin, step_pins_of_noPinDue noPin h⟩

/-- What is to come shrinks with the delay: no reset comes into its reach. -/
theorem step_keeps_no_reset {s t : State} (noReset : resetWithin s.due s = false) (hs : step s = .next t)
    (due : t.due = s.due - 1) : resetWithin t.due t = false := by
  obtain ⟨noPinReset, noAccessReset⟩ := (resetWithin_eq_false_iff s.due s).1 noReset
  refine (resetWithin_eq_false_iff t.due t).2 ⟨?_, ?_⟩
  · rcases step_pins_cases hs with ⟨level, rest, hp, e⟩ | ⟨-, e⟩
    · rw [hp, List.any_cons, Bool.or_eq_false_iff] at noPinReset
      obtain ⟨-, rest_low⟩ := noPinReset
      rw [e, rest_low]
    · rw [e, tickPins_level, noPinReset]
  · rw [List.any_eq_false] at noAccessReset ⊢
    have sub : t.inputs.take t.due ⊆ s.inputs.take s.due := by
      rw [due]
      rcases step_inputs hs with e | e <;> rw [e]
      · exact List.take_subset_take_left _ (Nat.sub_le _ _)
      · rw [← List.tail_take_eq_take_tail]
        exact List.tail_subset _
    exact fun op mem => noAccessReset op (sub mem)

/-- Every step but the completion keeps the flight, its latch included, and brings the completion nearer. -/
theorem Unabandoned.step_nearer {s : State} (h : Unabandoned s) (notBlock : turn s ≠ .block) :
    ∃ t, step s = .next t ∧ Unabandoned t ∧ t.latch = s.latch ∧ s.due ≤ t.due + 1 ∧
      t.due + t.pins.length < s.due + s.pins.length := by
  obtain ⟨t, hs⟩ := step_answers_of_busy h.low h.busy
  obtain ⟨low, busy, latch, due⟩ := h.step_flight notBlock hs
  refine ⟨t, hs, ⟨low, busy, step_keeps_no_reset h.noReset hs due⟩, latch, by omega, ?_⟩
  rcases step_pins_cases hs with ⟨level, rest, hp, e⟩ | ⟨noPin, e⟩
  · rw [hp, e, List.length_cons]
    omega
  · have later := h.due_ne_zero noPin notBlock
    rw [e, tickPins_length]
    omega

/-- The block's step leaves a cause that fits its mask. -/
theorem blockStep_cause {s t : State} (h : blockStep s = .next t) : t.cause = causeOf t.mask := by
  rcases blockStep_cases s with ⟨i, -, e⟩ | ⟨_, -, e⟩
  · rcases exec_cases (e.symm.trans h) with ⟨-, rfl⟩ | ⟨-, rfl⟩ <;> rw [complete_cause, complete_mask]
  · cases e.symm.trans h
    rw [complete_cause, complete_mask]

/-- The next step of `t` is the completion of its command. -/
def CompletesNext (t : State) : Prop :=
  ∃ u, step t = blockStep { t with pins := tickPins t.pins } ∧ step t = .next u ∧
    u.fsm = .idle ∧ u.done = true ∧ u.cause = causeOf u.mask

theorem completesNext_of_block {s : State} (ht : turn s = .block) : CompletesNext s := by
  obtain ⟨u, e, idle, done, -⟩ := blockStep_completes (tick s)
  exact ⟨u, step_of_block ht, (step_of_block ht).trans e, idle, done, blockStep_cause e⟩

/-- The command in flight stays so, with its latch, for `n` steps, and completes with the next one. -/
def CompletesAfter (n : Nat) (s : State) : Prop :=
  (∀ k ≤ n, ∃ t, Host.Core.run core k s = .next t ∧ t.fsm = .busy ∧ t.latch = s.latch) ∧
  ∃ t, Host.Core.run core n s = .next t ∧ CompletesNext t

theorem completesAfter_zero {s : State} (busy : s.fsm = .busy) (next : CompletesNext s) : CompletesAfter 0 s := by
  refine ⟨fun k hk => ?_, s, rfl, next⟩
  obtain rfl := Nat.le_zero.1 hk
  exact ⟨s, rfl, busy, rfl⟩

theorem completesAfter_succ {s t : State} {n : Nat} (busy : s.fsm = .busy) (hs : step s = .next t)
    (latch : t.latch = s.latch) (later : CompletesAfter n t) : CompletesAfter (n + 1) s := by
  obtain ⟨flight, u, run, next⟩ := later
  refine ⟨fun k hk => ?_, u, (run_succ n hs).trans run, next⟩
  cases k with
  | zero => exact ⟨s, rfl, busy, rfl⟩
  | succ k =>
    obtain ⟨v, run, busy', latch'⟩ := flight k (Nat.le_of_succ_le_succ hk)
    exact ⟨v, (run_succ k hs).trans run, busy', latch'.trans latch⟩

/-- Every step but the completion uses up a step of the delay or a change of the pin. -/
theorem Unabandoned.completes {s : State} (h : Unabandoned s) :
    ∃ n, s.due ≤ n ∧ n ≤ s.due + s.pins.length ∧ CompletesAfter n s := by
  by_cases ht : turn s = .block
  · obtain ⟨-, -, -, due⟩ := (turn_block_iff s).1 ht
    exact ⟨0, due.le, Nat.zero_le _, completesAfter_zero h.busy (completesNext_of_block ht)⟩
  · obtain ⟨t, hs, flight, latch, delay, nearer⟩ := h.step_nearer ht
    obtain ⟨n, atLeast, atMost, later⟩ := flight.completes
    exact ⟨n + 1, by omega, by omega, completesAfter_succ h.busy hs latch later⟩
termination_by s.due + s.pins.length

/-- Settles O49, by recursion on the delay and the changes of the pin that are left. -/
theorem commandInFlightCompletesOnce : Obligations.CommandInFlightCompletesOnce := by
  intro s low busy noReset
  obtain ⟨n, atLeast, atMost, flight, t, run, u, completion⟩ := Unabandoned.completes ⟨low, busy, noReset⟩
  exact ⟨n, atLeast, atMost, flight, t, u, run, completion⟩

end Sys2Proof.Machine

namespace Sys2Proof.Machine

/-! ### What a failed completion leaves (R106, R115, R117) -/

/-- Every command completes (R106): DONE is 1, FSM is IDLE, IE is as before, and CAUSE follows from MASK. -/
theorem exec_completes {i : Instr} {s t : State} (h : exec i s = .next t) :
    t.done = true ∧ t.fsm = .idle ∧ t.ie = s.ie ∧ t.mask = maskOfCommand i s.latch ∧ t.cause = causeOf t.mask := by
  have outputs : (outputsOfCommand i s.latch s).ie = s.ie := by cases i <;> rfl
  rcases exec_cases h with ⟨pass, rfl⟩ | ⟨-, rfl⟩
  · exact ⟨rfl, rfl, outputs, pass.symm, complete_cause _ _⟩
  · exact ⟨rfl, rfl, rfl, rfl, complete_cause _ _⟩

/-- A command that leaves a cause has failed a check, and its completion is all it does. -/
theorem exec_of_cause_ne_zero {i : Instr} {s t : State} (h : exec i s = .next t) (failed : t.cause ≠ 0#4) :
    maskOfCommand i s.latch ≠ 0#4 ∧ t = complete (maskOfCommand i s.latch) s := by
  rcases exec_cases h with ⟨-, rfl⟩ | error
  · exact absurd causeOf_zero failed
  · exact error

/-- Settles O26: a failed command only completes, and so does an illegal word. -/
theorem failedCommandWritesNoOutput : Obligations.FailedCommandWritesNoOutput := by
  refine ⟨fun i s => ?_, fun s => ⟨_, execIllegal_eq s, rfl, rfl, (by decide : causeOf 8#4 ≠ 0#4), rfl, rfl, rfl, rfl⟩⟩
  have completion := exec_eq i s
  obtain ⟨done, idle, -⟩ := exec_completes completion
  refine ⟨_, completion, done, idle, fun failed => ?_⟩
  obtain ⟨-, onlyCompletes⟩ := exec_of_cause_ne_zero completion failed
  rw [onlyCompletes]
  exact ⟨rfl, rfl, rfl, rfl⟩

/-- A failed command leaves every register that an acceptance loads, so its next acceptance loads the same latch. -/
theorem latch_loadLatch_complete_loadLatch (w : Word) (m : BitVec 4) (s : State) :
    (loadLatch w (complete m (loadLatch w s))).latch = (loadLatch w s).latch :=
  rfl

/-- Settles O29: both acceptances load the same latch, which alone gives the mask. -/
theorem reissueGivesTheSameError : Obligations.ReissueGivesTheSameError := by
  intro i w s t h failed
  obtain ⟨error, rfl⟩ := exec_of_cause_ne_zero h failed
  have same := latch_loadLatch_complete_loadLatch w (maskOfCommand i (loadLatch w s).latch) s
  refine ⟨_, exec_of_mask_error (by rwa [same]), ?_⟩
  rw [same]
  exact ⟨rfl, rfl⟩

/-! ### The values of MASK (R113) -/

/-- A command can leave exactly the masks that its checks give on some latch. -/
theorem exists_exec_mask_iff (i : Instr) (m : BitVec 4) :
    (∃ s t, exec i s = .next t ∧ t.mask = m) ↔ ∃ l, maskOfCommand i l = m := by
  constructor
  · rintro ⟨s, t, h, rfl⟩
    obtain ⟨-, -, -, mask, -⟩ := exec_completes h
    exact ⟨s.latch, mask.symm⟩
  · rintro ⟨l, rfl⟩
    have completion := exec_eq i { State.reset with latch := l }
    obtain ⟨-, -, -, mask, -⟩ := exec_completes completion
    exact ⟨_, _, completion, mask⟩

/-- A latch on which each of the three checks fails as asked. -/
def latchWithChecks (key iv offset : Bool) : Latch :=
  { Latch.zero with
    keylen := if key then 0#32 else 32#32, ivlen := if iv then 0#32 else 16#32, neg := offset, off := 1#160 }

theorem latchWithChecks_checks (key iv offset : Bool) :
    keyLengthBad (latchWithChecks key iv offset).keylen = key ∧
    ivLengthBad (latchWithChecks key iv offset).ivlen = iv ∧
    offsetNegative (latchWithChecks key iv offset).neg (latchWithChecks key iv offset).off = offset := by
  cases key <;> cases iv <;> cases offset <;> decide

/-- Without IllegalCommand a mask is any combination of the other three bits. -/
theorem exists_maskOf_iff (m : BitVec 4) : (∃ key iv offset, maskOf key iv offset false = m) ↔ m.toNat ≤ 7 := by
  revert m
  decide

/-- The three checks are independent of each other, so together they give every combination of their bits. -/
theorem exists_checkMask_iff (m : BitVec 4) :
    (∃ l : Latch, checkMask l.keylen l.ivlen l.neg l.off = m) ↔ m.toNat ≤ 7 := by
  rw [← exists_maskOf_iff]
  constructor
  · rintro ⟨l, rfl⟩
    exact ⟨_, _, _, rfl⟩
  · rintro ⟨key, iv, offset, rfl⟩
    obtain ⟨hkey, hiv, hoffset⟩ := latchWithChecks_checks key iv offset
    exact ⟨latchWithChecks key iv offset, by rw [checkMask, hkey, hiv, hoffset]⟩

/-- A command with one check leaves the mask 0 and the mask of that check, when some latch passes it and some fails it. -/
theorem exists_maskOfCommand_iff_of_checked {i : Instr} {bad : Latch → Prop} [DecidablePred bad] {bit : BitVec 4}
    (checked : ∀ l, maskOfCommand i l = if bad l then bit else 0#4) (passes : ∃ l, ¬ bad l) (fails : ∃ l, bad l)
    (m : BitVec 4) : (∃ l, maskOfCommand i l = m) ↔ m = 0b0000#4 ∨ m = bit := by
  constructor
  · rintro ⟨l, rfl⟩
    rw [checked]
    split_ifs
    · exact .inr rfl
    · exact .inl rfl
  · rintro (rfl | rfl)
    · exact passes.imp fun l pass => by rw [checked, if_neg pass]
    · exact fails.imp fun l fail => by rw [checked, if_pos fail]

theorem exists_maskOfCommand_increment_iff (m : BitVec 4) :
    (∃ l, maskOfCommand .increment l = m) ↔ m = 0b0000#4 ∨ m = 0b0010#4 :=
  exists_maskOfCommand_iff_of_checked maskOfCommand_increment ⟨latchWithChecks false false false, by decide⟩
    ⟨latchWithChecks false true false, by decide⟩ m

theorem exists_maskOfCommand_divide_iff (m : BitVec 4) :
    (∃ l, maskOfCommand .divide l = m) ↔ m = 0b0000#4 ∨ m = 0b0100#4 :=
  exists_maskOfCommand_iff_of_checked maskOfCommand_divide ⟨latchWithChecks false false false, by decide⟩
    ⟨latchWithChecks false false true, by decide⟩ m

/-- A command without checks leaves the mask 0 only. -/
theorem exists_maskOfCommand_iff_of_unchecked {i : Instr} (unchecked : ∀ l, maskOfCommand i l = 0#4) (m : BitVec 4) :
    (∃ l, maskOfCommand i l = m) ↔ m = 0b0000#4 := by
  constructor
  · rintro ⟨l, rfl⟩
    exact unchecked l
  · rintro rfl
    exact ⟨Latch.zero, unchecked Latch.zero⟩

theorem execIllegal_next_iff (s t : State) : execIllegal s = .next t ↔ t = complete 8#4 s := by
  rw [execIllegal_eq, Host.Outcome.next.injEq, eq_comm]

theorem exists_execIllegal_mask_iff (m : BitVec 4) :
    (∃ s t, execIllegal s = .next t ∧ t.mask = m) ↔ m = 0b1000#4 := by
  constructor
  · rintro ⟨s, t, h, rfl⟩
    rw [(execIllegal_next_iff s t).1 h, complete_mask]
  · rintro rfl
    exact ⟨State.reset, _, execIllegal_eq State.reset, rfl⟩

/-- Settles O28: each command's masks are what its checks give on all latches. -/
theorem maskValuesOfEachCommand : Obligations.MaskValuesOfEachCommand := by
  refine ⟨fun m => ?_, fun m => ?_, fun m => ?_, fun m => ?_, fun m => ?_, fun m => ?_, exists_execIllegal_mask_iff,
    fun i s t h => ?_, fun s t h => ?_⟩
  · exact (exists_exec_mask_iff .validate m).trans (exists_checkMask_iff m)
  · exact (exists_exec_mask_iff .position m).trans (exists_checkMask_iff m)
  · exact (exists_exec_mask_iff .increment m).trans (exists_maskOfCommand_increment_iff m)
  · exact (exists_exec_mask_iff .divide m).trans (exists_maskOfCommand_divide_iff m)
  · exact (exists_exec_mask_iff .nop m).trans (exists_maskOfCommand_iff_of_unchecked (fun _ => rfl) m)
  · exact (exists_exec_mask_iff .copyback m).trans (exists_maskOfCommand_iff_of_unchecked (fun _ => rfl) m)
  · obtain ⟨-, -, -, -, cause⟩ := exec_completes h
    exact cause
  · rw [(execIllegal_next_iff s t).1 h, complete_cause, complete_mask]

/-! ### The host after a fault of its own (R118; log 3, 17) -/

/-- A faulted host that makes an access stops when no command is in flight (log 3). -/
theorem step_of_host_faulted_idle {s : State} {op : BusOp} {rest : List BusOp} (ht : turn s = .host op rest)
    (low : s.rst = false) (fault : s.hostFault = true) (idle : s.fsm = .idle) : step s = .fault .hostProgram := by
  simp [step, ht, agentStep, hostStep, low, fault, idle]

/-- Settles O31: the faulted host's turn, by FSM. -/
theorem faultedHostProgramStops : Obligations.FaultedHostProgramStops := by
  intro s op rest low fault ht
  refine ⟨step_of_host_faulted_idle ht low fault, fun busy => ?_⟩
  rw [step_of_host_faulted ht low fault busy, passStep_tick_low low]

/-! ### The interrupt line (R120, R121) -/

theorem irq_iff (s : State) : irq s = true ↔ s.ie = true ∧ s.done = true :=
  Bool.and_eq_true_iff

theorem irq_of_done {s : State} (done : s.done = true) : irq s = s.ie := by
  rw [irq, done, Bool.and_true]

theorem irq_of_not_done {s : State} (notDone : s.done = false) : irq s = false := by
  rw [irq, notDone, Bool.and_false]

theorem irq_of_enabled {s : State} (enabled : s.ie = true) : irq s = s.done := by
  rw [irq, enabled, Bool.true_and]

theorem irq_of_disabled {s : State} (disabled : s.ie = false) : irq s = false := by
  rw [irq, disabled, Bool.false_and]

/-- A write to STATUS with bit 1 set clears DONE (R54). -/
theorem busWrite_status_done {v : Word} (s : State) (bit : v.getLsbD 1 = true) :
    (busWrite 0x0C#8 4 v s).done = false := by
  rw [busWrite_status, setReply_done, writeStatus_done, bit, Bool.not_true, Bool.and_false]

/-- An accepted CMD write clears DONE (R105). -/
theorem busWrite_cmd_idle_done {s : State} (w : Word) (idle : s.fsm = .idle) :
    (busWrite 0x08#8 4 w s).done = false :=
  congrArg State.done (busWrite_cmd_idle w idle)

/-- Settles O44: what each event leaves in IE and DONE. -/
theorem interruptFollowsEnableAndDone : Obligations.InterruptFollowsEnableAndDone := by
  have disable (s : State) : busWrite 0x04#8 4 0#32 s = { s with ie := false, reply := some (.write .ok) } :=
    busWrite_ctrl_ie s rfl
  have enable (s : State) : busWrite 0x04#8 4 2#32 s = { s with ie := true, reply := some (.write .ok) } :=
    busWrite_ctrl_ie s rfl
  refine ⟨irq_iff, fun i s => ?_, fun s => ⟨_, execIllegal_eq s, rfl, irq_of_done rfl⟩,
    fun s v bit => irq_of_not_done (busWrite_status_done s bit), fun s w idle => ?_, fun s => ?_, fun s => ?_,
    fun s => ⟨rfl, rfl⟩⟩
  · obtain ⟨done, -, ie, -⟩ := exec_completes (exec_eq i s)
    exact ⟨_, exec_eq i s, done, (irq_of_done done).trans ie⟩
  · have notDone := busWrite_cmd_idle_done w idle
    exact ⟨notDone, irq_of_not_done notDone⟩
  · rw [disable]
    exact ⟨irq_of_disabled rfl, rfl⟩
  · rw [enable]
    exact irq_of_enabled rfl

/-! ### A step on a platform (R126) -/

/-- Everything `stepInstance` can do: nothing stands at place `k`, or the state there takes its step. -/
theorem stepInstance_cases {k : Nat} {p q : List Placed} (h : stepInstance k p = .next q) :
    q = p ∨ ∃ i t, p[k]? = some i ∧ step i.core = .next t ∧ q = p.set k { i with core := t } := by
  unfold stepInstance at h
  split at h
  · cases h
    exact .inl rfl
  next i hk =>
    split at h <;> cases h
    exact .inr ⟨i, _, hk, ‹_›, rfl⟩

/-- A new state at one place leaves every BASE. -/
theorem map_base_set {p : List Placed} {k : Nat} {i : Placed} (hk : p[k]? = some i) (t : State) :
    (p.set k { i with core := t }).map Placed.base = p.map Placed.base := by
  obtain ⟨lt, rfl⟩ := List.getElem?_eq_some_iff.1 hk
  have kept : (p.map Placed.base)[k]'(by simpa using lt) = p[k].base := List.getElem_map Placed.base
  rw [List.map_set, ← kept, List.set_getElem_self]

/-- Settles O54: the step replaces the state at place `k`, and nothing else. -/
theorem instancesShareNoState : Obligations.InstancesShareNoState := by
  intro p q k h
  rcases stepInstance_cases h with rfl | ⟨i, t, hk, -, rfl⟩
  · exact ⟨rfl, fun _ _ => rfl, rfl⟩
  · exact ⟨List.length_set, fun _ ne => List.getElem?_set_ne ne.symm, map_base_set hk t⟩

end Sys2Proof.Machine

namespace Sys2Proof.Machine

/-! ### What the host writes for an offset (R93, R142) -/

theorem presentOffset_of_nonneg {o : Int} (nonneg : 0 ≤ o) : presentOffset o = (false, BitVec.ofNat 160 o.toNat) := by
  have magnitude : o.natAbs = o.toNat := by omega
  rw [presentOffset, magnitude, decide_eq_false nonneg.not_gt]

theorem presentOffset_of_neg {o : Int} (neg : o < 0) : presentOffset o = (true, BitVec.ofNat 160 (-o).toNat) := by
  have magnitude : o.natAbs = (-o).toNat := by omega
  rw [presentOffset, magnitude, decide_eq_true neg]

/-- The check sees the magnitude modulo 2^160: a negative multiple of that passes. -/
theorem offsetNegative_presentOffset_iff (o : Int) :
    offsetNegative (presentOffset o).1 (presentOffset o).2 = true ↔ o < 0 ∧ o.natAbs % 2 ^ 160 ≠ 0 := by
  rw [offsetNegative_iff, presentOffset, decide_eq_true_iff, BitVec.toNat_ofNat]

/-- With OFF = 1 for the magnitudes that do not fit, no negative offset is taken for 0. -/
theorem offsetNegative_presentOffsetKeepingError_iff (o : Int) :
    offsetNegative (presentOffsetKeepingError o).1 (presentOffsetKeepingError o).2 = true ↔ o < 0 := by
  unfold presentOffsetKeepingError
  split_ifs with far
  · obtain ⟨neg, -⟩ := far
    exact iff_of_true rfl neg
  · rw [offsetNegative_presentOffset_iff]
    omega

/-- A magnitude that fits its register is presented whole, with its sign. -/
theorem offsetValue_presentOffset {o : Int} (fits : o.natAbs < 2 ^ 160) :
    offsetValue (presentOffset o).1 (presentOffset o).2 = o := by
  simp only [offsetValue_eq, presentOffset, decide_eq_true_iff, BitVec.toNat_ofNat, Nat.mod_eq_of_lt fits]
  split_ifs <;> omega

/-- Settles O19: the two signs, the check under both presentations, and the value of a magnitude that fits. -/
theorem hostPresentationOfOffsets : Obligations.HostPresentationOfOffsets :=
  ⟨fun _ => presentOffset_of_nonneg, fun _ => presentOffset_of_neg, offsetNegative_presentOffset_iff,
    offsetNegative_presentOffsetKeepingError_iff, fun _ => offsetValue_presentOffset⟩

/-! ### A host access under reset (R134) -/

/-- Settles O42: the host's step looks at the pin's level before all else. -/
theorem accessUnderResetIsRefused : Obligations.AccessUnderResetIsRefused := by
  intro s op rest high ht
  rw [step, ht, agentStep, hostStep, tick_rst, if_pos high]

/-! ### After a reset, with no access of the host to come (R131) -/

/-- Every register holds its reset value, and the host makes no more accesses. -/
structure ResetAtRest (s : State) : Prop where
  regs : AtReset s
  noAccess : s.inputs = []

theorem step_of_quiet {s : State} (ht : turn s = .quiet) : step s = .next (passStep (tick s)) := by
  rw [step, ht, agentStep]

/-- With no command in flight, no access to come and no change of the pin due, nothing moves. -/
theorem turn_quiet {s : State} (noPin : noPinDue s) (idle : s.fsm = .idle) (noAccess : s.inputs = []) :
    turn s = .quiet := by
  rw [turn_of_noPinDue noPin, turnAtPort_of_not_block (by simp [idle]), noAccess]

/-- Time that passes leaves the registers at their reset values, at either level of the pin. -/
theorem atReset_passStep {s : State} (regs : AtReset s) : AtReset (passStep s) := by
  cases level : s.rst with
  | true =>
    rw [passStep_high level]
    exact atReset_applyReset s
  | false =>
    rw [passStep_low level]
    exact regs

/-- A change of the pin to either level leaves the registers at their reset values. -/
theorem atReset_pinStep {s : State} (level : Bool) (rest : List PinChange) (regs : AtReset s) :
    AtReset (pinStep level rest s) := by
  cases level with
  | true => exact atReset_pinStep_high rest s
  | false => exact atReset_passStep regs

/-- Only the pin can move, and it keeps the registers at reset. -/
theorem ResetAtRest.step_rests {s : State} (h : ResetAtRest s) : ∃ t, step s = .next t ∧ ResetAtRest t := by
  rcases turn_cases s with ⟨level, rest, due, -⟩ | ⟨noPin, -⟩
  · exact ⟨_, step_of_pinDue due, atReset_pinStep level rest h.regs, (pinStep_inputs level rest s).trans h.noAccess⟩
  · have ⟨idle, _⟩ := h.regs
    exact ⟨_, step_of_quiet (turn_quiet noPin idle h.noAccess), atReset_passStep (s := tick s) h.regs,
      (passStep_inputs (tick s)).trans h.noAccess⟩

theorem ResetAtRest.run_rests (k : Nat) {s : State} (h : ResetAtRest s) :
    ∃ t, Host.Core.run core k s = .next t ∧ ResetAtRest t := by
  induction k generalizing s with
  | zero => exact ⟨s, rfl, h⟩
  | succ k ih =>
    obtain ⟨u, hs, rests⟩ := h.step_rests
    obtain ⟨t, run, regs⟩ := ih rests
    exact ⟨t, (run_succ k hs).trans run, regs⟩

/-- Once a step has reset the block, all further steps leave it at reset, with irq at 0. -/
theorem run_atReset_of_step {s t : State} (k : Nat) (hs : step s = .next t) (h : ResetAtRest t) :
    ∃ u, Host.Core.run core (k + 1) s = .next u ∧ AtReset u ∧ irq u = false := by
  obtain ⟨u, run, rests⟩ := h.run_rests k
  exact ⟨u, (run_succ k hs).trans run, rests.regs, irq_of_atReset rests.regs⟩

/-- The pin's step to a high level, when the host makes no more accesses. -/
theorem resetAtRest_pinStep_high {s : State} (rest : List PinChange) (noAccess : s.inputs = []) :
    ResetAtRest (pinStep true rest s) :=
  ⟨atReset_pinStep_high rest s, (pinStep_inputs true rest s).trans noAccess⟩

/-- The write to CTRL with bit 0 set, when it is the host's last access. -/
theorem resetAtRest_srst {v : Word} (s : State) (srst : v.getLsbD 0 = true) :
    ResetAtRest (performOp (.write (regOffset .ctrl) 4 v) [] s) := by
  rw [performOp, busWrite_ctrl_srst s srst]
  exact ⟨atReset_applyReset s, rfl⟩

/-- Settles O41: both resets leave the block at reset with no access to come, and every step keeps that. -/
theorem resetAbandonsTheCommand : Obligations.ResetAbandonsTheCommand := by
  refine ⟨fun s rest k _ ht noAccess => ?_, fun s v k low clean _ srst ht => ?_⟩
  · exact run_atReset_of_step k (step_of_pinDue ((turn_pin_iff s true rest).1 ht)) (resetAtRest_pinStep_high rest noAccess)
  · exact run_atReset_of_step k (step_of_host ht low clean) (resetAtRest_srst _ srst)

end Sys2Proof.Machine
